-- ==== Sys2Proof/Word.lean ====
section
/-! DEFINITION. The word types of the block (spec/00_scope.md R4, spec/30_encoding.md R60 to R62): widths only. -/

namespace Sys2Proof

/-- One payload byte; byte k of a payload is `data[8k+7:8k]` (R41). -/
abbrev Byte := BitVec 8

/-- `ID_W` = 29: an identifier port or the `id` field of a frame word (R4, R60). -/
abbrev Ident := BitVec 29

/-- `ADM_W` = 11: an admin command (R4, R61). -/
abbrev AdmCmd := BitVec 11

/-- `FW` = 99: one frame word, one queue entry (R4, R62). -/
abbrev Frame := BitVec 99

/-- `PW` = 7: a queue pointer, its gray copy or a synchroniser rank (R4, R15, R16). -/
abbrev Ptr := BitVec 7

/-- `AW` = 6: the address of an entry of a storage array (R4, R29). -/
abbrev Addr := BitVec 6

end Sys2Proof
end

