-- ==== Sys2Proof/Config.lean ====
section
/-! DEFINITION. What is fixed when the block is built or powered up and what the sources leave open:
the structural parameters of R4, the power-up contents of the storage arrays (a free value, R222, U4),
and the enumerators and their tables (parameters a claim quantifies over, R7, R102). -/

namespace Sys2Proof

/-- `DEPTH` = 64: the capacity of each queue, in frames (R4). -/
abbrev Config.depth : Nat := 64

/-- `MAX_DATA` = 8: the largest payload, in bytes (R4). -/
abbrev Config.maxData : Nat := 8

/-- Which storage array is meant: INQ's, OUTQ's (R2, R17), or the one of the AFIFO that R130 describes on its own. -/
inductive ArrayId where
  | inq
  | outq
  | unit
deriving DecidableEq, Repr

/-- FREE VALUE (assumption log 3). What an entry of a storage array holds before any PUSH has written it: 'any value'
(R17, R222, U4). It has no body: nothing can be proved of the value, and one entry keeps one value (R44: a read
is idempotent) over a RESET too (R222). -/
opaque Config.powerUpEntry : ArrayId → Addr → Frame

/-! ### Enumerators (R7, D15, D16): names, and one parameter of the field's width for each -/

/-- The `module_type` names the document gives (R7). `other k` stands for the module kinds behind its '…'. -/
inductive ModName where
  | all
  | any
  | undefined
  | reserved
  | control
  | sensor
  | pump
  | other (k : Nat)
deriving DecidableEq, Repr

/-- The `instance` names the document gives (R7). `numbered k` stands for its 'numbered instances'. -/
inductive InstName where
  | all
  | any
  | undefined
  | reserved
  | exclusive
  | numbered (k : Nat)
deriving DecidableEq, Repr

/-- The `message_type` names the document gives (R7). `other k` stands for the rest of the message catalogue;
`undefined` and `reserved` are the two sentinels R102 quotes for out-of-range codes: R7 gives them no parameter. -/
inductive MsgName where
  | pingRequest
  | pingResponse
  | undefined
  | reserved
  | other (k : Nat)
deriving DecidableEq, Repr

/-- The admin commands: the document gives 'none by name' (R7), so every one is `other k`. -/
inductive AdmName where
  | other (k : Nat)
deriving DecidableEq, Repr

/-- The component identities (R7): `Common_core`, and `other k` for those the document does not name. -/
inductive ComponentName where
  | commonCore
  | other (k : Nat)
deriving DecidableEq, Repr

/-- The one constraint a model may assume of the (name, value) rows of a field (R7): different names have different values,
so that (R102) a code names one row; and a name has one value. -/
def rowsLegal {ν α : Type} (rows : List (ν × α)) : Prop :=
  (rows.map Prod.fst).Nodup ∧ (rows.map Prod.snd).Nodup

/-- A parameter table of one field (R102): its (name, value) rows, and the name an unlisted code is classified as
(`unknown_variant`, D16). No table is fixed by the model: a claim holds for every one that is `legal`. -/
structure CodeTable (ν : Type) (w : Nat) where
  rows : List (ν × BitVec w)
  unknown : ν
deriving DecidableEq, Repr

/-- A table whose rows are legal. -/
def CodeTable.legal {ν : Type} {w : Nat} (t : CodeTable ν w) : Prop := rowsLegal t.rows

/-- The parameters `MOD_ALL`, `MOD_ANY`, `MOD_UNDEFINED`, `MOD_RESERVED`, `MOD_CONTROL`, `MOD_SENSOR`, `MOD_PUMP` (R7), the
values of further module kinds, and the field's `unknown_variant` (R102). -/
structure ModParams where
  all : BitVec 8
  any : BitVec 8
  undefined : BitVec 8
  reserved : BitVec 8
  control : BitVec 8
  sensor : BitVec 8
  pump : BitVec 8
  further : List (Nat × BitVec 8)
  unknown : ModName
deriving DecidableEq, Repr

/-- The parameters `INST_ALL`, `INST_ANY`, `INST_UNDEFINED`, `INST_RESERVED`, `INST_EXCLUSIVE` (R7), the values of the numbered
instances, and the field's `unknown_variant` (R102). -/
structure InstParams where
  all : BitVec 4
  any : BitVec 4
  undefined : BitVec 4
  reserved : BitVec 4
  exclusive : BitVec 4
  further : List (Nat × BitVec 4)
  unknown : InstName
deriving DecidableEq, Repr

/-- The parameters `MT_PING_REQUEST`, `MT_PING_RESPONSE` (R7), the values of further messages, and the field's
`unknown_variant` (R102). -/
structure MsgParams where
  pingRequest : BitVec 12
  pingResponse : BitVec 12
  further : List (Nat × BitVec 12)
  unknown : MsgName
deriving DecidableEq, Repr

/-- The `module_type` table of R102: every name of R7 has its row. -/
def ModParams.table (p : ModParams) : CodeTable ModName 8 where
  rows :=
    [(.all, p.all), (.any, p.any), (.undefined, p.undefined), (.reserved, p.reserved), (.control, p.control),
      (.sensor, p.sensor), (.pump, p.pump)] ++ p.further.map (fun r => (.other r.1, r.2))
  unknown := p.unknown

/-- The `instance` table of R102: every name of R7 has its row. -/
def InstParams.table (p : InstParams) : CodeTable InstName 4 where
  rows :=
    [(.all, p.all), (.any, p.any), (.undefined, p.undefined), (.reserved, p.reserved), (.exclusive, p.exclusive)] ++
      p.further.map (fun r => (.numbered r.1, r.2))
  unknown := p.unknown

/-- The `message_type` table of R102: every name of R7 has its row. -/
def MsgParams.table (p : MsgParams) : CodeTable MsgName 12 where
  rows :=
    [(.pingRequest, p.pingRequest), (.pingResponse, p.pingResponse)] ++ p.further.map (fun r => (.other r.1, r.2))
  unknown := p.unknown

/-- All enumerators of R7: one value for each name. Nothing in the model fixes one (D15, U3), and no step reads one (R7):
a claim quantifies over every assignment that is `legal`. DESIGN CHOICE (assumption log 12): a component identity is a number
without a width, since the spec gives it none. -/
structure Enumerators where
  mod : ModParams
  inst : InstParams
  msg : MsgParams
  adm : List (Nat × BitVec 11)
  commonCore : Nat
  components : List (Nat × Nat)
deriving DecidableEq, Repr

/-- The (name, value) rows of the admin commands: a row for each that an environment names (R7 names none). -/
def Enumerators.admRows (e : Enumerators) : List (AdmName × BitVec 11) := e.adm.map (fun r => (.other r.1, r.2))

/-- The (name, value) rows of the component identities, `Common_core` among them (R7). -/
def Enumerators.componentRows (e : Enumerators) : List (ComponentName × Nat) :=
  (.commonCore, e.commonCore) :: e.components.map (fun r => (.other r.1, r.2))

/-- The only constraint R7 allows: within a field different names have different values. -/
def Enumerators.legal (e : Enumerators) : Prop :=
  e.mod.table.legal ∧ e.inst.table.legal ∧ e.msg.table.legal ∧ rowsLegal e.admRows ∧ rowsLegal e.componentRows

end Sys2Proof
end

