-- ==== Sys2Proof/Syntax.lean ====
section
/-! DEFINITION. The operations of the block (spec/30_encoding.md R74, one constructor per row of
spec/opcode_table.json), the input lines an environment presents, and the abstract syntax of the transaction
script (R76, R77). -/

namespace Sys2Proof

/-- The 22 operations of R74. The operands are input port values of exactly the port's width (R27, D7), so a value
wider than its port cannot be written down. A clocked operation stands for the WHOLE clock edge that selects it:
its operands are every control input of that edge (TCTL of R71, ICTL of R72) and the frame inputs it carries. An edge
that selects several operations (SEND with RECV; RXDEP with TXSVC and ERREVT) is the constructor of the highest
selected bit of the control word, the others being its Boolean operands (assumption log 5). -/
inductive Instr where
  /-- ENC_APP (R90). -/
  | encApp (mt : BitVec 12) (mod : BitVec 8) (inst : BitVec 4)
  /-- DEC_APP (R91). -/
  | decApp (id : Ident)
  /-- ENC_ADM (R92). -/
  | encAdm (cmd : AdmCmd)
  /-- DEC_ADM (R93). -/
  | decAdm (id : Ident)
  /-- DEC_FRAME (R94). -/
  | decFrame (frame : Frame)
  /-- MK_APP (R95). -/
  | mkApp (mt : BitVec 12) (mod : BitVec 8) (inst : BitVec 4) (len : BitVec 4) (data : BitVec 64)
  /-- MK_ADM (R96). -/
  | mkAdm (cmd : AdmCmd) (rtr : Bool) (len : BitVec 4) (data : BitVec 64)
  /-- FRAME_CHK (R97). -/
  | frameChk (frame : Frame)
  /-- B2G (R110), N = 7. -/
  | b2g (b : Ptr)
  /-- G2B (R111), N = 7. -/
  | g2b (g : Ptr)
  /-- GC_INC (R113): a source-clock edge of the GSYNC described on its own, `inc` = GCTL[0]. -/
  | gcInc (inc : Bool)
  /-- SYNC_SHIFT (R114): a destination-clock edge of the GSYNC described on its own. -/
  | syncShift
  /-- PUSH (R131, R133): a write-clock edge of the AFIFO described on its own, `winc` = WCTL[0]. -/
  | push (winc : Bool) (wdata : Frame)
  /-- POP (R132, R134): a read-clock edge of the AFIFO described on its own, `rinc` = RCTL[0]. -/
  | pop (rinc : Bool)
  /-- SEND (R162): a TASK edge with `send_req` = 1; `space` = `tx_space_w`, `recvReq` = `recv_req`. -/
  | send (space : Bool) (frame : Frame) (recvReq : Bool)
  /-- RECV (R165): a TASK edge with `send_req` = 0 and `recv_req` = 1; `frame` is what stands on `send_frame`. -/
  | recv (space : Bool) (frame : Frame)
  /-- TICK_T (R171): a TASK edge with `send_req` = `recv_req` = 0; `frame` is what stands on `send_frame`. -/
  | tickT (space : Bool) (frame : Frame)
  /-- RXDEP (R167): an ISR edge with `rx_valid` = 1. -/
  | rxdep (frame : Frame) (txDone space err : Bool)
  /-- TXSVC (R168): an ISR edge with `rx_valid` = 0 and `tx_done` = 1. -/
  | txsvc (space err : Bool)
  /-- ERREVT (R170): an ISR edge with `rx_valid` = `tx_done` = 0 and `err_evt` = 1. -/
  | errevt (space : Bool)
  /-- TICK_I (R172): an ISR edge with `rx_valid` = `tx_done` = `err_evt` = 0; while `OUTQ.tx_run` = 1 the loop of
  R168 goes on at it. -/
  | tickI (space : Bool)
  /-- RESET (R220), with the level put on `arst_n` = RST[0]: 0 performs RESET and holds it, 1 releases it. -/
  | reset (arstN : Bool)
deriving DecidableEq, Repr

/-- The choices of a coincident pair (R6, R76 `see=`): for each cross-domain sample, whether it returns the new (true) or the
old (false) value. For a TASK edge with an ISR edge, in R76's order: `s1` the TASK edge's sample of `OUTQ.rgray`, `s2` the TASK
edge's of `INQ.wgray`, `s3` the ISR edge's of `INQ.rgray`, `s4` the ISR edge's of `OUTQ.wgray`. For the AFIFO on its own (R142):
`s1` the write edge's of `rgray`, `s2` the read edge's of `wgray`. For the GSYNC on its own (R115): `s1`. -/
structure See where
  s1 : Bool
  s2 : Bool
  s3 : Bool
  s4 : Bool
deriving DecidableEq, Repr

/-- `see=0000`: what ideal flops do (R76, R115). -/
def See.old : See := ⟨false, false, false, false⟩

/-- One line of input as the environment presents it, still as bytes (Decode.lean reads them): one edge, one reset change or
one CODEC evaluation; or a coincident pair (R6), the first record being the TASK (write, source) side. -/
inductive InputLine where
  | one (bytes : List Byte)
  | pair (first second : List Byte) (see : See)
deriving DecidableEq, Repr

/-- Why a byte record is no input of the block. All are records the ports cannot present (assumption log 6), so refusing them
is safe. -/
inductive DecodeError where
  /-- The record has not `recordBytes` bytes. -/
  | badLength (n : Nat)
  /-- No port group has this number. -/
  | noSuchPortGroup (code : Nat)
  /-- A bit above the width of the group's word, or of its frame input, is 1. -/
  | bitsOutsideThePort
  /-- A bit that the opcode table fixes to 0 or 1 in the row's pattern has the other value. -/
  | fixedBits
deriving DecidableEq, Repr

/-! ### The transaction script (R76, R77), abstract syntax -/

/-- `frame` of R76. -/
inductive ScriptFrame where
  | app (mt : BitVec 12) (mod : BitVec 8) (inst : BitVec 4) (data : List Byte)
  | adm (cmd : AdmCmd) (rtr : Bool) (data : List Byte)
  | raw (f : Frame)
deriving DecidableEq, Repr

/-- `t-part` of R76: what may follow `T:`. -/
structure TPart where
  send : Option ScriptFrame
  recv : Bool
  space : Bool
deriving DecidableEq, Repr

/-- `i-part` of R76: what may follow `I:`. -/
structure IPart where
  rxdep : Option ScriptFrame
  txDone : Bool
  err : Bool
  space : Bool
deriving DecidableEq, Repr

/-- `line` of R76 and the pseudo-operations of R77. -/
inductive ScriptLine where
  | reset
  | t (p : TPart)
  | i (p : IPart)
  | pair (tp : TPart) (ip : IPart) (see : See)
  | tTimes (n : Nat) (p : TPart)
  | iTimes (n : Nat) (p : IPart)
  | settle
deriving DecidableEq, Repr

end Sys2Proof
end

