-- ==== Sys2Proof/Machine/State.lean ====
section
/-! DEFINITION. The state of the machine (spec/10_state.md R10 to R19, R27, R28), why a step can stop, and the state after
reset. All of it is plain data. -/

namespace Sys2Proof.Machine

/-- A storage array (R17): (entry address, frame word) pairs with strictly rising addresses below 64. The addressable unit is one
99-bit frame word and no byte of it has an address of its own (R29, R43), so a cell holds a whole word. An address that is not
listed was never written: it reads as `none` here, and the read port shows `Config.powerUpEntry` (assumption log 3, 4). -/
abbrev Mem := List (Nat × Frame)

/-- One AFIFO instance `Q`: the eight 7-bit registers of R15 and R16 under the spec's names, and the array of R17. -/
structure Afifo where
  /-- `Q.wbin`, write domain: the binary write pointer. -/
  wbin : Ptr
  /-- `Q.wgray`, write domain: `b2g(Q.wbin)`, what the read domain samples. -/
  wgray : Ptr
  /-- `Q.wq1_rgray`, write domain: first rank of the read pointer. -/
  wq1Rgray : Ptr
  /-- `Q.wq2_rgray`, write domain: second rank, the write domain's view of the read pointer. -/
  wq2Rgray : Ptr
  /-- `Q.rbin`, read domain: the binary read pointer. -/
  rbin : Ptr
  /-- `Q.rgray`, read domain: `b2g(Q.rbin)`, what the write domain samples. -/
  rgray : Ptr
  /-- `Q.rq1_wgray`, read domain: first rank of the write pointer. -/
  rq1Wgray : Ptr
  /-- `Q.rq2_wgray`, read domain: second rank, the read domain's view of the write pointer. -/
  rq2Wgray : Ptr
  /-- `Q.mem[0..63]` (R17). -/
  mem : Mem
deriving DecidableEq, Repr

/-- One GSYNC instance of width 7 (R14). -/
structure Gsync where
  /-- `src_bin`, source domain. -/
  srcBin : Ptr
  /-- `src_gray`, source domain. -/
  srcGray : Ptr
  /-- `dst_q1`, destination domain. -/
  dstQ1 : Ptr
  /-- `dst_q2`, destination domain. -/
  dstQ2 : Ptr
deriving DecidableEq, Repr

/-! ### Output ports (R27): not state of the block, but what its last cycle showed (assumption log 8) -/

/-- `send_status` (R163). -/
inductive SendStatus where
  | idle
  | bypassed
  | queued
  | dropped
deriving DecidableEq, Repr

/-- The TASK-domain outputs of R27, and the RECV_EMPTY wire of R191. -/
structure TaskPorts where
  sendStatus : SendStatus
  bypValid : Bool
  bypFrame : Frame
  outWfull : Bool
  outWcount : Ptr
  recvValid : Bool
  recvFrame : Frame
  inRcount : Ptr
  recvEmpty : Bool
deriving DecidableEq, Repr

/-- The ISR-domain outputs of R27. -/
structure IsrPorts where
  inOk : Bool
  inDrop : Bool
  inWfull : Bool
  inWcount : Ptr
  txValid : Bool
  txFrame : Frame
  outRempty : Bool
  outRcount : Ptr
deriving DecidableEq, Repr

/-- The CODEC outputs of R27, each as the last evaluation of its operation left it. -/
structure CodecPorts where
  encId : Ident
  decMt : BitVec 12
  decMod : BitVec 8
  decInst : BitVec 4
  decResvNz : Bool
  admIdOut : Ident
  admCmdOut : AdmCmd
  clsIsApp : Bool
  clsMt : BitVec 12
  clsMod : BitVec 8
  clsInst : BitVec 4
  clsResvNz : Bool
  clsCmd : AdmCmd
  frameOk : Bool
  mkAppFrame : Frame
  mkAdmFrame : Frame
deriving DecidableEq, Repr

/-- The results of B2G and G2B as operations of their own (R110, R111). -/
structure GrayPorts where
  gray : Ptr
  bin : Ptr
deriving DecidableEq, Repr

/-- The write port of the AFIFO on its own (R130). -/
structure WritePorts where
  wrOk : Bool
  wrDrop : Bool
  wfull : Bool
  wcount : Ptr
deriving DecidableEq, Repr

/-- The read port of the AFIFO on its own (R130, R132), and its `rinc && empty` indication. -/
structure ReadPorts where
  rdValid : Bool
  rdata : Frame
  rdPop : Bool
  rdEmpty : Bool
  rempty : Bool
  rcount : Ptr
deriving DecidableEq, Repr

/-- All outputs, by the domain or unit they belong to. -/
structure Ports where
  task : TaskPorts
  isr : IsrPorts
  codec : CodecPorts
  gray : GrayPorts
  write : WritePorts
  read : ReadPorts
deriving DecidableEq, Repr

/-- The machine. `inq`, `outq` and `txRun` are the whole state of the block (R10). `gsync` and `afifo` are the two units as
41_gray_sync.md and 42_afifo.md describe them on their own (R14, R130, R73); the block's own GSYNC instances are the pointer
paths of its queues (R19) and no operation but a push or pop steps those (R113), so GC_INC, SYNC_SHIFT, PUSH
and POP as operations of their own act on these two (assumption log 9). `arstN` is the level of the input
`arst_n` (R27, R220), `rxStdFilter` the static parameter `RX_STD_FILTER` (R4, R236), `ports` the outputs of each domain's
last cycle, `pending` the inputs the environment presents next, first one first (R5, R12). -/
structure State where
  inq : Afifo
  outq : Afifo
  txRun : Bool
  gsync : Gsync
  afifo : Afifo
  arstN : Bool
  rxStdFilter : Bool
  ports : Ports
  pending : List InputLine
deriving DecidableEq, Repr

/-- Why the machine could stop with a fault: never. 'Nothing in the block traps' (R190) and no access can miss the
arrays, since an address is 6 bits (R29); so there is no constructor. Safe: a step that cannot fault hides none of the
block's, which has none. -/
inductive Fault where
deriving DecidableEq, Repr

/-- Why the machine refuses an input line. Every reason concerns bytes or pairs that no port of the block can
present, so refusing is safe. -/
inductive Refusal where
  /-- An operation without a meaning; raised by no arm of exec. Safe: the machine stops. -/
  | notModelled (mnemonic : String)
  /-- `step` met a byte record that is no input of the block (Decode.lean). Safe: the machine stops. -/
  | undecodable (e : DecodeError)
  /-- `step` met a pair that is not two simultaneous edges of R6, R115 or R142. Safe: the machine stops. -/
  | notAPair
deriving DecidableEq, Repr

/-- What a meaning answers. -/
abbrev Result := Host.Outcome State Fault Refusal

/-- A queue whose registers are all 0 (R28) and whose array nothing has written (R17). -/
def Afifo.fresh : Afifo :=
  { wbin := 0, wgray := 0, wq1Rgray := 0, wq2Rgray := 0, rbin := 0, rgray := 0, rq1Wgray := 0, rq2Wgray := 0, mem := [] }

/-- A GSYNC whose registers are all 0 (R14). -/
def Gsync.fresh : Gsync := { srcBin := 0, srcGray := 0, dstQ1 := 0, dstQ2 := 0 }

/-- The outputs after reset 'with all inputs 0' (R28): `send_status` IDLE, no valid and no drop, counts 0, empty flags 1. The
frame outputs show the unwritten entry 0 (R223).

DESIGN CHOICE (assumption log 8). R27 and R28 give no value of a CODEC or gray output that no operation has evaluated yet. The
model takes the functions of R90 to R97, R110 and R111 at operands 0: all of them 0, but for `frame_ok` = 1 (R97) and
`mk_app_frame` = 2^93, the `ext` bit that MK_APP sets in every frame word (R95). -/
def Ports.afterReset : Ports :=
  { task :=
      { sendStatus := .idle, bypValid := false, bypFrame := 0, outWfull := false, outWcount := 0, recvValid := false,
        recvFrame := Config.powerUpEntry .inq 0, inRcount := 0, recvEmpty := false }
    isr :=
      { inOk := false, inDrop := false, inWfull := false, inWcount := 0, txValid := false,
        txFrame := Config.powerUpEntry .outq 0, outRempty := true, outRcount := 0 }
    codec :=
      { encId := 0, decMt := 0, decMod := 0, decInst := 0, decResvNz := false, admIdOut := 0, admCmdOut := 0,
        clsIsApp := false, clsMt := 0, clsMod := 0, clsInst := 0, clsResvNz := false, clsCmd := 0, frameOk := true,
        mkAppFrame := 1#99 <<< 93, mkAdmFrame := 0 }
    gray := { gray := 0, bin := 0 }
    write := { wrOk := false, wrDrop := false, wfull := false, wcount := 0 }
    read :=
      { rdValid := false, rdata := Config.powerUpEntry .unit 0, rdPop := false, rdEmpty := false, rempty := true, rcount := 0 } }

/-- The machine right after reset (R28, R224): every register 0, the arrays not written, `arst_n` released, the default of
`RX_STD_FILTER` (R4: 0), no input presented yet. -/
def State.reset : State :=
  { inq := Afifo.fresh, outq := Afifo.fresh, txRun := false, gsync := Gsync.fresh, afifo := Afifo.fresh, arstN := true,
    rxStdFilter := false, ports := Ports.afterReset, pending := [] }

end Sys2Proof.Machine
end

