-- ==== Sys2Proof/Machine/Gray.lean ====
section
/-! DEFINITION. The gray code of spec/41_gray_sync.md, at any width. -/

namespace Sys2Proof.Machine

/-- `b2g_N` (R110): binary to gray. -/
def b2g {n : Nat} (b : BitVec n) : BitVec n := b ^^^ (b >>> 1)

/-- `g ^ (g >> 1) ^ … ^ (g >> k)`. -/
def grayFold {n : Nat} (g : BitVec n) : Nat → BitVec n
  | 0 => g
  | k + 1 => grayFold g k ^^^ (g >>> (k + 1))

/-- `g2b_N` (R111), in the closed form the rule gives: gray to binary. -/
def g2b {n : Nat} (g : BitVec n) : BitVec n := grayFold g (n - 1)

/-- The counter of GC_INC (R113): the next binary and gray values at a source edge. -/
def grayStep {n : Nat} (inc : Bool) (bin gray : BitVec n) : BitVec n × BitVec n :=
  if inc then (bin + 1, b2g (bin + 1)) else (bin, gray)

end Sys2Proof.Machine
end

