-- ==== Sys2Proof/Machine/Flags.lean ====
section
/-! DEFINITION. The four derived flags and views of a queue (spec/10_state.md R20 to R23), each a function of its own domain's
registers, and the indications of spec/60_exceptions.md R191. -/

namespace Sys2Proof.Machine

/-- `wfull(Q)` (R20). -/
def Afifo.wfull (q : Afifo) : Bool := q.wgray == (q.wq2Rgray ^^^ 0b1100000#7)

/-- `rempty(Q)` (R21). -/
def Afifo.rempty (q : Afifo) : Bool := q.rgray == q.rq2Wgray

/-- `wcount(Q)` (R22). -/
def Afifo.wcount (q : Afifo) : Ptr := q.wbin - g2b q.wq2Rgray

/-- `rcount(Q)` (R23). -/
def Afifo.rcount (q : Afifo) : Ptr := g2b q.rq2Wgray - q.rbin

/-- `occ(Q)` (R24): the true occupancy, which no domain computes. -/
def Afifo.occ (q : Afifo) : Ptr := q.wbin - q.rbin

/-- `send_status[1:0]` (R163). -/
def SendStatus.code : SendStatus → BitVec 2
  | .idle => 0
  | .bypassed => 1
  | .queued => 2
  | .dropped => 3

/-- `received_queue_size() -> u8` (R23, R174, R206). -/
def receivedQueueSize (s : State) : BitVec 8 := s.inq.rcount.setWidth 8

/-- The indications, all there are (R191). -/
inductive Indication where
  | inDrop
  | outDrop
  | recvEmpty
  | resvNz
  | frameBad
deriving DecidableEq, Repr

/-- The spec's own numbering of the indications (R191). -/
def Indication.code : Indication → Nat
  | .inDrop => 1
  | .outDrop => 2
  | .recvEmpty => 3
  | .resvNz => 4
  | .frameBad => 5

/-- Whether an indication's wire was 1 in the last cycle of its domain or unit (R191). RESV_NZ has two wires, `dec_resv_nz` and
`cls_resv_nz`. Nothing is latched: the next cycle of the domain overwrites its ports (R190). -/
def State.indicates (s : State) : Indication → Bool
  | .inDrop => s.ports.isr.inDrop
  | .outDrop => s.ports.task.sendStatus == .dropped
  | .recvEmpty => s.ports.task.recvEmpty
  | .resvNz => s.ports.codec.decResvNz || s.ports.codec.clsResvNz
  | .frameBad => !s.ports.codec.frameOk

end Sys2Proof.Machine
end

