-- ==== Sys2Proof/Machine/Memory.lean ====
section
/-! DEFINITION. The storage arrays: MemRead and MemWrite of spec/20_memory.md R40, over the canonical list of State.lean. -/

namespace Sys2Proof.Machine

/-- The entry written at an address, or `none` where nothing was written. -/
def memLookup : Mem → Nat → Option Frame
  | [], _ => none
  | (a, v) :: rest, k => if a = k then some v else memLookup rest k

/-- `MemWrite(Q, a, v)`: replaces all 99 bits of one entry (R40), keeping the addresses in rising order. -/
def memWrite : Mem → Nat → Frame → Mem
  | [], k, v => [(k, v)]
  | (a, u) :: rest, k, v =>
    if k < a then (k, v) :: (a, u) :: rest
    else if a = k then (k, v) :: rest
    else (a, u) :: memWrite rest k v

/-- Strictly rising addresses, all at least `lo` and below 64. -/
def memWfFrom : Nat → Mem → Bool
  | _, [] => true
  | lo, (a, _) :: rest => decide (lo ≤ a) && decide (a < Config.depth) && memWfFrom (a + 1) rest

/-- The canonical form. An unlisted address reads as 'never written', which no entry is equal to. -/
def Mem.wf (m : Mem) : Bool := memWfFrom 0 m

/-- The address of a pointer: its low six bits (R29, R139). -/
def entryAddr (p : Ptr) : Addr := p.extractLsb' 0 6

/-- `MemRead(Q, a)` (R40): a combinational read of a whole entry. Before any write it shows the free power-up value
of that entry (R223, U4). -/
def memRead (id : ArrayId) (m : Mem) (a : Addr) : Frame :=
  match memLookup m a.toNat with
  | some v => v
  | none => Config.powerUpEntry id a

/-- The entry that a queue's pointer addresses. -/
def Afifo.entry (id : ArrayId) (q : Afifo) (p : Ptr) : Frame := memRead id q.mem (entryAddr p)

end Sys2Proof.Machine
end

