-- ==== Sys2Proof/Machine/Operands.lean ====
section
/-! DEFINITION. The operands: fields of identifiers and frame words (spec/30_encoding.md R60 to R67), and the control inputs of a
clock edge (R71, R72). -/

namespace Sys2Proof.Machine

/-! ### APPID29 and ADMID11 -/

/-- The normative formula of R65, on operands zero-extended to 29 bits. -/
def packAppId (mt : BitVec 12) (mod : BitVec 8) (inst : BitVec 4) : Ident :=
  (mt.setWidth 29 <<< 16) ||| (mod.setWidth 29 <<< 4) ||| inst.setWidth 29

/-- `message_type = id[27:16]` (R65). -/
def appIdMt (id : Ident) : BitVec 12 := id.extractLsb' 16 12

/-- `module_type = id[11:4]` (R65). -/
def appIdMod (id : Ident) : BitVec 8 := id.extractLsb' 4 8

/-- `instance = id[3:0]` (R65). -/
def appIdInst (id : Ident) : BitVec 4 := id.extractLsb' 0 4

/-- `dec_resv_nz` (R67): the OR of bits 28, 15, 14, 13, 12. -/
def appIdResvNz (id : Ident) : Bool :=
  id.getLsbD 28 || id.getLsbD 15 || id.getLsbD 14 || id.getLsbD 13 || id.getLsbD 12

/-- `zext_29(cmd)` (R92). -/
def packAdmId (cmd : AdmCmd) : Ident := cmd.setWidth 29

/-- `id[10:0]` (R93). -/
def admIdCmd (id : Ident) : AdmCmd := id.extractLsb' 0 11

/-! ### FW99 (R62) -/

/-- `f.len = f[98:95]`. -/
def frameLen (f : Frame) : BitVec 4 := f.extractLsb' 95 4

/-- `f.rtr = f[94]`. -/
def frameRtr (f : Frame) : Bool := f.getLsbD 94

/-- `f.ext = f[93]`. -/
def frameExt (f : Frame) : Bool := f.getLsbD 93

/-- `f.id = f[92:64]`. -/
def frameId (f : Frame) : Ident := f.extractLsb' 64 29

/-- `f.data = f[63:0]`. -/
def frameData (f : Frame) : BitVec 64 := f.extractLsb' 0 64

/-- Payload byte `k` of the sequence, `data[8k+7:8k]` (R41, R62). -/
def frameByte (f : Frame) (k : Nat) : Byte := f.extractLsb' (8 * k) 8

/-- The frame word with given fields (R62). -/
def mkFrame (len : BitVec 4) (rtr ext : Bool) (id : Ident) (data : BitVec 64) : Frame :=
  len ++ BitVec.ofBool rtr ++ BitVec.ofBool ext ++ id ++ data

/-- The Wire Frame invariant (R63, R97). -/
def frameOk (f : Frame) : Bool :=
  decide (frameLen f ≤ 8#4) && (frameExt f || (frameId f).extractLsb' 11 18 == 0#18)

/-- An Application Message (R64). -/
def isAppMessage (f : Frame) : Bool := frameExt f && !frameRtr f

/-- An Admin Message (R64). -/
def isAdminMessage (f : Frame) : Bool := !frameExt f

/-- The first `n` payload bytes. -/
def frameBytes (f : Frame) (n : Nat) : List Byte := (List.range n).map (frameByte f)

/-- 'Two frame words are the same frame' (R75): `len`, `rtr`, `ext`, `id` and the first `len` payload bytes agree. -/
def sameFrame (f g : Frame) : Bool :=
  frameLen f == frameLen g && frameRtr f == frameRtr g && frameExt f == frameExt g && frameId f == frameId g
    && frameBytes f (frameLen f).toNat == frameBytes g (frameLen g).toNat

/-! ### The inputs of a clock edge -/

/-- The TASK-domain inputs of R27 at one `clk_task` edge. -/
structure TaskIn where
  sendReq : Bool
  txSpaceW : Bool
  recvReq : Bool
  sendFrame : Frame
deriving DecidableEq, Repr

/-- The ISR-domain inputs of R27 at one `clk_isr` edge. -/
structure IsrIn where
  rxValid : Bool
  txDone : Bool
  txSpaceR : Bool
  errEvt : Bool
  rxFrame : Frame
deriving DecidableEq, Repr

/-- All TASK inputs 0. -/
def TaskIn.idle : TaskIn := ⟨false, false, false, 0⟩

/-- All ISR inputs 0. -/
def IsrIn.idle : IsrIn := ⟨false, false, false, false, 0⟩

/-- The TASK inputs at which an operation is the one selected (R71). -/
def taskInputs : Instr → Option TaskIn
  | .send space frame recvReq => some ⟨true, space, recvReq, frame⟩
  | .recv space frame => some ⟨false, space, true, frame⟩
  | .tickT space frame => some ⟨false, space, false, frame⟩
  | _ => none

/-- The ISR inputs at which an operation is the one selected (R72). What stands on `rx_frame` while `rx_valid` is 0 reaches
nothing (R167: `pass` is 0); it is taken as 0 here. -/
def isrInputs : Instr → Option IsrIn
  | .rxdep frame txDone space err => some ⟨true, txDone, space, err, frame⟩
  | .txsvc space err => some ⟨false, true, space, err, 0⟩
  | .errevt space => some ⟨false, false, space, true, 0⟩
  | .tickI space => some ⟨false, false, space, false, 0⟩
  | _ => none

end Sys2Proof.Machine
end

