-- ==== Sys2Proof/Machine/Ops.lean ====
section
/-! DEFINITION. The shared operations: the write and read edges of an AFIFO (spec/42_afifo.md R131 to R134), the TASK and the ISR
edge (spec/43_channels.md R161, R166), reset (spec/70_reset_and_hazards.md R220), and the setters of an output port. The block has
no exception to take or return from (R190, R197); its one global operation is RESET. Each edge takes what its cross-domain
samples return as arguments (R115): a single edge passes the current values, a coincident pair the old or the new ones. -/

namespace Sys2Proof.Machine

/-! ### AFIFO -/

/-- `wr_ok` of R131. -/
def Afifo.wrOk (winc : Bool) (q : Afifo) : Bool := winc && !q.wfull

/-- `rd_pop` of R132. -/
def Afifo.rdPop (rinc : Bool) (q : Afifo) : Bool := rinc && !q.rempty

/-- PUSH (R131): store and step the pointer when not full, else nothing (R137). The pointer steps by GC_INC (R113, R19). -/
def Afifo.push (winc : Bool) (wdata : Frame) (q : Afifo) : Afifo :=
  let n := grayStep (q.wrOk winc) q.wbin q.wgray
  { q with
    mem := if q.wrOk winc then memWrite q.mem (entryAddr q.wbin).toNat wdata else q.mem
    wbin := n.1
    wgray := n.2 }

/-- POP (R132): step the pointer when not empty, else nothing (R138). The entry is not erased. -/
def Afifo.pop (rinc : Bool) (q : Afifo) : Afifo :=
  let n := grayStep (q.rdPop rinc) q.rbin q.rgray
  { q with rbin := n.1, rgray := n.2 }

/-- SYNC_SHIFT of the read-pointer path (R114, R133); `rgray` is what `sample(Q.rgray)` returned. -/
def Afifo.shiftWrite (rgray : Ptr) (q : Afifo) : Afifo := { q with wq2Rgray := q.wq1Rgray, wq1Rgray := rgray }

/-- SYNC_SHIFT of the write-pointer path (R114, R134); `wgray` is what `sample(Q.wgray)` returned. -/
def Afifo.shiftRead (wgray : Ptr) (q : Afifo) : Afifo := { q with rq2Wgray := q.rq1Wgray, rq1Wgray := wgray }

/-- The write-clock edge (R133). PUSH reads no register that the shift writes after it, and the shift none that PUSH
writes, so doing one after the other is doing both from the state before the edge. -/
def Afifo.writeEdge (winc : Bool) (wdata : Frame) (rgray : Ptr) (q : Afifo) : Afifo :=
  (q.push winc wdata).shiftWrite rgray

/-- The read-clock edge (R134). -/
def Afifo.readEdge (rinc : Bool) (wgray : Ptr) (q : Afifo) : Afifo := (q.pop rinc).shiftRead wgray

/-- The queue after a write edge gave `w` and a simultaneous read edge gave `r` from one state (R142): each edge writes the
registers of its own domain, and only the write edge writes the array. -/
def Afifo.join (w r : Afifo) : Afifo :=
  { w with rbin := r.rbin, rgray := r.rgray, rq1Wgray := r.rq1Wgray, rq2Wgray := r.rq2Wgray }

/-- The eight registers at 0, the array kept (R220, R222). -/
def Afifo.resetRegs (q : Afifo) : Afifo := { Afifo.fresh with mem := q.mem }

/-! ### SEND and RECV: the TASK edge -/

/-- SEND's decision (R162), reported by outcome (R163): bypass when the queue is empty in the write domain's view and the engine
has space, else enqueue unless full, else drop. -/
def sendStatus (inp : TaskIn) (q : Afifo) : SendStatus :=
  if inp.sendReq then
    if q.wcount == 0 && inp.txSpaceW then .bypassed
    else if q.wfull then .dropped
    else .queued
  else .idle

/-- The TASK outputs in the cycle that ends at the edge (R27, R162, R165). -/
def taskPorts (inp : TaskIn) (s : State) : TaskPorts :=
  { sendStatus := sendStatus inp s.outq
    bypValid := sendStatus inp s.outq == .bypassed
    bypFrame := inp.sendFrame
    outWfull := s.outq.wfull
    outWcount := s.outq.wcount
    recvValid := !s.inq.rempty
    recvFrame := s.inq.entry .inq s.inq.rbin
    inRcount := s.inq.rcount
    recvEmpty := inp.recvReq && s.inq.rempty }

/-- The TASK edge (R161), given what `sample(OUTQ.rgray)` and `sample(INQ.wgray)` return. While `arst_n` is 0 the edge changes no
register (R220); its outputs are there all the same. -/
def taskEdge (inp : TaskIn) (outRgray inWgray : Ptr) (s : State) : State :=
  { s with
    outq :=
      if s.arstN then s.outq.writeEdge (sendStatus inp s.outq == .queued) inp.sendFrame outRgray else s.outq
    inq := if s.arstN then s.inq.readEdge inp.recvReq inWgray else s.inq
    ports := { s.ports with task := taskPorts inp s } }

/-- A TASK edge alone: the samples return the current values (R115 (a)). -/
def taskStep (inp : TaskIn) (s : State) : State := taskEdge inp s.outq.rgray s.inq.wgray s

/-! ### RXDEP and TXSVC: the ISR edge -/

/-- `pass` of R167: the delivered frame is not filtered. -/
def rxPass (inp : IsrIn) (s : State) : Bool := inp.rxValid && (frameExt inp.rxFrame || !s.rxStdFilter)

/-- `pop` of R168. -/
def txPop (inp : IsrIn) (s : State) : Bool := (s.txRun || inp.txDone) && !s.outq.rempty && inp.txSpaceR

/-- The ISR outputs in the cycle that ends at the edge (R27, R167, R168). `err_evt` reaches none of them (R170). -/
def isrPorts (inp : IsrIn) (s : State) : IsrPorts :=
  { inOk := rxPass inp s && !s.inq.wfull
    inDrop := rxPass inp s && s.inq.wfull
    inWfull := s.inq.wfull
    inWcount := s.inq.wcount
    txValid := txPop inp s
    txFrame := s.outq.entry .outq s.outq.rbin
    outRempty := s.outq.rempty
    outRcount := s.outq.rcount }

/-- The ISR edge (R166), given what `sample(INQ.rgray)` and `sample(OUTQ.wgray)` return. While `arst_n` is 0 the edge changes no
register (R220). -/
def isrEdge (inp : IsrIn) (inRgray outWgray : Ptr) (s : State) : State :=
  { s with
    inq := if s.arstN then s.inq.writeEdge (rxPass inp s) inp.rxFrame inRgray else s.inq
    outq := if s.arstN then s.outq.readEdge (txPop inp s) outWgray else s.outq
    txRun := if s.arstN then txPop inp s else s.txRun
    ports := { s.ports with isr := isrPorts inp s } }

/-- An ISR edge alone: the samples return the current values (R115 (a)). -/
def isrStep (inp : IsrIn) (s : State) : State := isrEdge inp s.inq.rgray s.outq.wgray s

/-! ### Coincident edges (R6, R115, R142) -/

/-- What a sample returns of a register that goes from `old` to `new` at the same instant. -/
def sampled (seeNew : Bool) (old new : Ptr) : Ptr := if seeNew then new else old

/-- A TASK edge and an ISR edge at the same instant: both from the state before, each writing its own domain's registers. -/
def pairStep (t : TaskIn) (i : IsrIn) (see : See) (s : State) : State :=
  let tNew := taskStep t s
  let iNew := isrStep i s
  let st :=
    taskEdge t (sampled see.s1 s.outq.rgray iNew.outq.rgray) (sampled see.s2 s.inq.wgray iNew.inq.wgray) s
  let si :=
    isrEdge i (sampled see.s3 s.inq.rgray tNew.inq.rgray) (sampled see.s4 s.outq.wgray tNew.outq.wgray) s
  { s with
    outq := Afifo.join st.outq si.outq
    inq := Afifo.join si.inq st.inq
    txRun := si.txRun
    ports := { s.ports with task := st.ports.task, isr := si.ports.isr } }

/-! ### The AFIFO and the GSYNC on their own -/

/-- The write port's outputs (R130, R131). -/
def writePorts (winc : Bool) (q : Afifo) : WritePorts :=
  { wrOk := q.wrOk winc, wrDrop := winc && q.wfull, wfull := q.wfull, wcount := q.wcount }

/-- The read port's outputs (R130, R132). -/
def readPorts (rinc : Bool) (q : Afifo) : ReadPorts :=
  { rdValid := !q.rempty, rdata := q.entry .unit q.rbin, rdPop := q.rdPop rinc, rdEmpty := rinc && q.rempty,
    rempty := q.rempty, rcount := q.rcount }

/-- A write-clock edge of the AFIFO on its own (R133), given what `sample(Q.rgray)` returns. -/
def unitWrite (winc : Bool) (wdata : Frame) (rgray : Ptr) (s : State) : State :=
  { s with
    afifo := if s.arstN then s.afifo.writeEdge winc wdata rgray else s.afifo
    ports := { s.ports with write := writePorts winc s.afifo } }

/-- A read-clock edge of the AFIFO on its own (R134), given what `sample(Q.wgray)` returns. -/
def unitRead (rinc : Bool) (wgray : Ptr) (s : State) : State :=
  { s with
    afifo := if s.arstN then s.afifo.readEdge rinc wgray else s.afifo
    ports := { s.ports with read := readPorts rinc s.afifo } }

/-- The two edges of the AFIFO on its own at the same instant (R142); with `see` all old, one clock for both ports (R141). -/
def unitPair (winc : Bool) (wdata : Frame) (rinc : Bool) (see : See) (s : State) : State :=
  let wNew := unitWrite winc wdata s.afifo.rgray s
  let rNew := unitRead rinc s.afifo.wgray s
  let sw := unitWrite winc wdata (sampled see.s1 s.afifo.rgray rNew.afifo.rgray) s
  let sr := unitRead rinc (sampled see.s2 s.afifo.wgray wNew.afifo.wgray) s
  { s with
    afifo := Afifo.join sw.afifo sr.afifo
    ports := { s.ports with write := sw.ports.write, read := sr.ports.read } }

/-- GC_INC (R113) on a GSYNC. -/
def Gsync.step (inc : Bool) (g : Gsync) : Gsync :=
  let n := grayStep inc g.srcBin g.srcGray
  { g with srcBin := n.1, srcGray := n.2 }

/-- SYNC_SHIFT (R114) on a GSYNC; `gray` is what `sample(src_gray)` returned. -/
def Gsync.shift (gray : Ptr) (g : Gsync) : Gsync := { g with dstQ2 := g.dstQ1, dstQ1 := gray }

/-- A source-clock edge of the GSYNC on its own. -/
def gsyncSource (inc : Bool) (s : State) : State :=
  { s with gsync := if s.arstN then s.gsync.step inc else s.gsync }

/-- A destination-clock edge of the GSYNC on its own, given what `sample(src_gray)` returns. -/
def gsyncDest (gray : Ptr) (s : State) : State :=
  { s with gsync := if s.arstN then s.gsync.shift gray else s.gsync }

/-- The two edges of the GSYNC on its own at the same instant (R115). The shift reads the source only through the sample. -/
def gsyncPair (inc : Bool) (see : See) (s : State) : State :=
  gsyncDest (sampled see.s1 s.gsync.srcGray (gsyncSource inc s).gsync.srcGray) (gsyncSource inc s)

/-! ### Reset -/

/-- RESET (R220): every register of every domain 0, in both domains at once; the arrays are not written (R222). -/
def clearRegs (s : State) : State :=
  { s with
    inq := s.inq.resetRegs
    outq := s.outq.resetRegs
    txRun := false
    gsync := Gsync.fresh
    afifo := s.afifo.resetRegs }

/-- The clocked outputs as functions of the state with all inputs 0 (R28, R220: 'the combinational functions of the reset state
and the present inputs', which the environment holds at 0, R225). -/
def idlePorts (s : State) : Ports :=
  { s.ports with
    task := taskPorts TaskIn.idle s
    isr := isrPorts IsrIn.idle s
    write := writePorts false s.afifo
    read := readPorts false s.afifo }

/-- The input `arst_n` takes a level (R220): at 0 RESET is performed and held, at 1 it is released and nothing else happens. -/
def setReset (arstN : Bool) (s : State) : State :=
  if arstN then { s with arstN := true }
  else
    let c := { clearRegs s with arstN := false }
    { c with ports := idlePorts c }

/-! ### CODEC and gray outputs -/

/-- An evaluation of the CODEC: it changes its outputs and nothing else (R13). -/
def setCodec (s : State) (p : CodecPorts) : State := { s with ports := { s.ports with codec := p } }

/-- An evaluation of B2G or G2B: it changes its output and nothing else. -/
def setGray (s : State) (p : GrayPorts) : State := { s with ports := { s.ports with gray := p } }

/-- The first pending input line is used up. -/
def State.withPending (s : State) (ls : List InputLine) : State := { s with pending := ls }

end Sys2Proof.Machine
end

