-- ==== Sys2Proof/Machine/Channel.lean ====
section
/-! DEFINITION. The channel operations (spec/43_channels.md): each is the TASK edge (R161) or the ISR edge (R166) at which it is the
operation selected, with every other part of that edge. -/

namespace Sys2Proof.Machine

/-- SEND (R162); RECV at the same edge when `recvReq` (R71, R161). -/
def execSend (space : Bool) (frame : Frame) (recvReq : Bool) (s : State) : Result :=
  .next (taskStep ⟨true, space, recvReq, frame⟩ s)

/-- RECV (R165), without SEND. -/
def execRecv (space : Bool) (frame : Frame) (s : State) : Result := .next (taskStep ⟨false, space, true, frame⟩ s)

/-- TICK_T (R171). -/
def execTickT (space : Bool) (frame : Frame) (s : State) : Result := .next (taskStep ⟨false, space, false, frame⟩ s)

/-- RXDEP (R167); TXSVC is evaluated at the same edge, as at every ISR edge (R166, R168), and `err` changes nothing (R170). -/
def execRxdep (frame : Frame) (txDone space err : Bool) (s : State) : Result :=
  .next (isrStep ⟨true, txDone, space, err, frame⟩ s)

/-- TXSVC (R168), started by `tx_done`. -/
def execTxsvc (space err : Bool) (s : State) : Result := .next (isrStep ⟨false, true, space, err, 0⟩ s)

/-- ERREVT (R170): the edge does what it would do without the event. -/
def execErrevt (space : Bool) (s : State) : Result := .next (isrStep ⟨false, false, space, true, 0⟩ s)

/-- TICK_I (R172): while `OUTQ.tx_run` is 1 the edge goes on with TXSVC (R168). -/
def execTickI (space : Bool) (s : State) : Result := .next (isrStep ⟨false, false, space, false, 0⟩ s)

end Sys2Proof.Machine
end

