-- ==== Sys2Proof/Machine/Codec.lean ====
section
/-! DEFINITION. The CODEC operations (spec/40_codec.md R90 to R97), the classification of raw codes (R102), and the values of
the names (R7). -/

namespace Sys2Proof.Machine

/-- ENC_APP (R90). -/
def execEncApp (mt : BitVec 12) (mod : BitVec 8) (inst : BitVec 4) (s : State) : Result :=
  .next (setCodec s { s.ports.codec with encId := packAppId mt mod inst })

/-- DEC_APP (R91). -/
def execDecApp (id : Ident) (s : State) : Result :=
  .next (setCodec s
    { s.ports.codec with
      decMt := appIdMt id, decMod := appIdMod id, decInst := appIdInst id, decResvNz := appIdResvNz id })

/-- ENC_ADM (R92). -/
def execEncAdm (cmd : AdmCmd) (s : State) : Result :=
  .next (setCodec s { s.ports.codec with admIdOut := packAdmId cmd })

/-- DEC_ADM (R93): bits 28:11 are ignored. -/
def execDecAdm (id : Ident) (s : State) : Result :=
  .next (setCodec s { s.ports.codec with admCmdOut := admIdCmd id })

/-- DEC_FRAME (R94): the path `f.ext` selects; the outputs of the other path are 0. -/
def classifyFrame (f : Frame) (p : CodecPorts) : CodecPorts :=
  if frameExt f then
    { p with
      clsIsApp := true, clsMt := appIdMt (frameId f), clsMod := appIdMod (frameId f), clsInst := appIdInst (frameId f),
      clsResvNz := appIdResvNz (frameId f), clsCmd := 0 }
  else
    { p with
      clsIsApp := false, clsMt := 0, clsMod := 0, clsInst := 0, clsResvNz := false, clsCmd := admIdCmd (frameId f) }

/-- DEC_FRAME (R94). -/
def execDecFrame (frame : Frame) (s : State) : Result :=
  .next (setCodec s (classifyFrame frame s.ports.codec))

/-- The frame word of an Application Message (R95): `ext` = 1, `rtr` = 0. -/
def appFrame (mt : BitVec 12) (mod : BitVec 8) (inst : BitVec 4) (len : BitVec 4) (data : BitVec 64) : Frame :=
  mkFrame len false true (packAppId mt mod inst) data

/-- The frame word of an Admin Message (R96): `ext` = 0. -/
def admFrame (cmd : AdmCmd) (rtr : Bool) (len : BitVec 4) (data : BitVec 64) : Frame :=
  mkFrame len rtr false (packAdmId cmd) data

/-- MK_APP (R95). -/
def execMkApp (mt : BitVec 12) (mod : BitVec 8) (inst : BitVec 4) (len : BitVec 4) (data : BitVec 64) (s : State) : Result :=
  .next (setCodec s { s.ports.codec with mkAppFrame := appFrame mt mod inst len data })

/-- MK_ADM (R96). -/
def execMkAdm (cmd : AdmCmd) (rtr : Bool) (len : BitVec 4) (data : BitVec 64) (s : State) : Result :=
  .next (setCodec s { s.ports.codec with mkAdmFrame := admFrame cmd rtr len data })

/-- FRAME_CHK (R97). -/
def execFrameChk (frame : Frame) (s : State) : Result :=
  .next (setCodec s { s.ports.codec with frameOk := frameOk frame })

/-! ### Classification (R102): outside the datapath, over a parameter table -/

/-- The name of a code: its row's, or the table's `unknown_variant`. -/
def codeName {ν : Type} {w : Nat} (unknown : ν) : List (ν × BitVec w) → BitVec w → ν
  | [], _ => unknown
  | (n, v) :: rest, c => if v = c then n else codeName unknown rest c

/-- `class_mt`, `class_mod`, `class_inst` (R102): total, and the raw code is kept beside the name. -/
def classify {ν : Type} {w : Nat} (t : CodeTable ν w) (c : BitVec w) : ν × BitVec w := (codeName t.unknown t.rows c, c)

/-- `class_mt` (R102). -/
def classMt (t : CodeTable MsgName 12) (c : BitVec 12) : MsgName × BitVec 12 := classify t c

/-- `class_mod` (R102). -/
def classMod (t : CodeTable ModName 8) (c : BitVec 8) : ModName × BitVec 8 := classify t c

/-- `class_inst` (R102). -/
def classInst (t : CodeTable InstName 4) (c : BitVec 4) : InstName × BitVec 4 := classify t c

/-! ### Name to value (R7) -/

/-- The value of a name: its row's, none where it has no row. -/
def codeOf {ν α : Type} [DecidableEq ν] (n : ν) : List (ν × α) → Option α
  | [] => none
  | (m, v) :: rest => if m = n then some v else codeOf n rest

/-- The value of a `module_type` name (R7). -/
def valueMod (e : Enumerators) (n : ModName) : Option (BitVec 8) := codeOf n e.mod.table.rows

/-- The value of an `instance` name (R7). -/
def valueInst (e : Enumerators) (n : InstName) : Option (BitVec 4) := codeOf n e.inst.table.rows

/-- The value of a `message_type` name (R7). -/
def valueMt (e : Enumerators) (n : MsgName) : Option (BitVec 12) := codeOf n e.msg.table.rows

/-- The value of an admin command (R7). -/
def valueAdm (e : Enumerators) (n : AdmName) : Option (BitVec 11) := codeOf n e.admRows

/-- The value of a component identity (R7). -/
def valueComponent (e : Enumerators) (n : ComponentName) : Option Nat := codeOf n e.componentRows

end Sys2Proof.Machine
end

