-- ==== Sys2Proof/Machine/GraySync.lean ====
section
/-! DEFINITION. The GSYNC operations (spec/41_gray_sync.md R110, R111, R113, R114). -/

namespace Sys2Proof.Machine

/-- B2G (R110). -/
def execB2g (b : Ptr) (s : State) : Result := .next (setGray s { s.ports.gray with gray := b2g b })

/-- G2B (R111). -/
def execG2b (g : Ptr) (s : State) : Result := .next (setGray s { s.ports.gray with bin := g2b g })

/-- GC_INC (R113). -/
def execGcInc (inc : Bool) (s : State) : Result := .next (gsyncSource inc s)

/-- SYNC_SHIFT (R114): alone, the sample returns the current `src_gray` (R115 (a)). -/
def execSyncShift (s : State) : Result := .next (gsyncDest s.gsync.srcGray s)

end Sys2Proof.Machine
end

