-- ==== Sys2Proof/Machine/Queue.lean ====
section
/-! DEFINITION. The AFIFO operations on their own (spec/42_afifo.md R131 to R134). -/

namespace Sys2Proof.Machine

/-- PUSH (R131), the write-clock edge of R133: alone, the sample returns the current `rgray`. -/
def execPush (winc : Bool) (wdata : Frame) (s : State) : Result := .next (unitWrite winc wdata s.afifo.rgray s)

/-- POP (R132), the read-clock edge of R134: alone, the sample returns the current `wgray`. -/
def execPop (rinc : Bool) (s : State) : Result := .next (unitRead rinc s.afifo.wgray s)

end Sys2Proof.Machine
end

