-- ==== Sys2Proof/Machine/Reset.lean ====
section
/-! DEFINITION. RESET (spec/70_reset_and_hazards.md R220 to R222). -/

namespace Sys2Proof.Machine

/-- RESET (R220): `arst_n` takes the level; at 0 every register becomes 0 and stays so until the level is 1 again. -/
def execReset (arstN : Bool) (s : State) : Result := .next (setReset arstN s)

end Sys2Proof.Machine
end

