-- ==== Sys2Proof/Machine/Dispatch.lean ====
section
/-! DEFINITION. exec: one arm per operation of spec/opcode_table.json, in the table's order. -/

namespace Sys2Proof.Machine

def exec (i : Instr) (s : State) : Host.Outcome State Fault Refusal :=
  match i with
  | .encApp mt mod inst => Sys2Proof.Machine.execEncApp mt mod inst s
  | .decApp id => Sys2Proof.Machine.execDecApp id s
  | .encAdm cmd => Sys2Proof.Machine.execEncAdm cmd s
  | .decAdm id => Sys2Proof.Machine.execDecAdm id s
  | .decFrame frame => Sys2Proof.Machine.execDecFrame frame s
  | .mkApp mt mod inst len data => Sys2Proof.Machine.execMkApp mt mod inst len data s
  | .mkAdm cmd rtr len data => Sys2Proof.Machine.execMkAdm cmd rtr len data s
  | .frameChk frame => Sys2Proof.Machine.execFrameChk frame s
  | .b2g b => Sys2Proof.Machine.execB2g b s
  | .g2b g => Sys2Proof.Machine.execG2b g s
  | .gcInc inc => Sys2Proof.Machine.execGcInc inc s
  | .syncShift => Sys2Proof.Machine.execSyncShift s
  | .push winc wdata => Sys2Proof.Machine.execPush winc wdata s
  | .pop rinc => Sys2Proof.Machine.execPop rinc s
  | .send space frame recvReq => Sys2Proof.Machine.execSend space frame recvReq s
  | .recv space frame => Sys2Proof.Machine.execRecv space frame s
  | .tickT space frame => Sys2Proof.Machine.execTickT space frame s
  | .rxdep frame txDone space err => Sys2Proof.Machine.execRxdep frame txDone space err s
  | .txsvc space err => Sys2Proof.Machine.execTxsvc space err s
  | .errevt space => Sys2Proof.Machine.execErrevt space s
  | .tickI space => Sys2Proof.Machine.execTickI space s
  | .reset arstN => Sys2Proof.Machine.execReset arstN s

end Sys2Proof.Machine
end

