-- ==== Sys2Proof/WellFormed.lean ====
section
/-! DEFINITION. What of the syntax can be ill formed. An operation cannot: its operands have exactly the port widths, and
R69 makes every value of every format legal, reserved bits and over-long `len` among them. What can be ill formed is a pair of
operations that are not two simultaneous edges (R6), and a script frame with more than 8 payload bytes (R76). -/

namespace Sys2Proof

/-- The agent or unit whose edge an operation is (R5, R74 'kind'). -/
inductive EdgeKind where
  | task
  | isr
  | afifoWrite
  | afifoRead
  | gsyncSource
  | gsyncDest
  | combinational
  | asyncReset
deriving DecidableEq, Repr

/-- The kind column of R74. -/
def Instr.kind : Instr → EdgeKind
  | .encApp _ _ _ => .combinational
  | .decApp _ => .combinational
  | .encAdm _ => .combinational
  | .decAdm _ => .combinational
  | .decFrame _ => .combinational
  | .mkApp _ _ _ _ _ => .combinational
  | .mkAdm _ _ _ _ => .combinational
  | .frameChk _ => .combinational
  | .b2g _ => .combinational
  | .g2b _ => .combinational
  | .gcInc _ => .gsyncSource
  | .syncShift => .gsyncDest
  | .push _ _ => .afifoWrite
  | .pop _ => .afifoRead
  | .send _ _ _ => .task
  | .recv _ _ => .task
  | .tickT _ _ => .task
  | .rxdep _ _ _ _ => .isr
  | .txsvc _ _ => .isr
  | .errevt _ => .isr
  | .tickI _ => .isr
  | .reset _ => .asyncReset

/-- Two operations may stand in one coincident pair: a TASK edge and an ISR edge (R6), a write and a read edge of the AFIFO on
its own (R142), a source and a destination edge of the GSYNC on its own (R115). -/
def pairWf (a b : Instr) : Bool :=
  match a.kind, b.kind with
  | .task, .isr => true
  | .afifoWrite, .afifoRead => true
  | .gsyncSource, .gsyncDest => true
  | _, _ => false

/-- `bytes` of R76: 'up to 8 two-digit hexadecimal bytes'. -/
def ScriptFrame.wf : ScriptFrame → Bool
  | .app _ _ _ data => data.length ≤ Config.maxData
  | .adm _ _ data => data.length ≤ Config.maxData
  | .raw _ => true

/-- A `t-part` is well formed when its frame is. -/
def TPart.wf (p : TPart) : Bool := p.send.all ScriptFrame.wf

/-- An `i-part` is well formed when its frame is. -/
def IPart.wf (p : IPart) : Bool := p.rxdep.all ScriptFrame.wf

/-- A script line is well formed when its parts are. -/
def ScriptLine.wf : ScriptLine → Bool
  | .reset => true
  | .t p => p.wf
  | .i p => p.wf
  | .pair tp ip _ => tp.wf && ip.wf
  | .tTimes _ p => p.wf
  | .iTimes _ p => p.wf
  | .settle => true

end Sys2Proof
end

