-- ==== Sys2Proof/Decode.lean ====
section
/-! DEFINITION. Reading an input record and writing one. The block fetches no instructions (R12): what selects an operation is a
control word on the inputs of one domain, or a port group of its own (R71 to R74). A record is the model's way to
present such an input as bytes (assumption log 6): the word of the opcode table's row, bit 0 first, in 104 bits;
one byte that says which port group it stands on; the frame input of that edge in 104 bits, its upper 5 bits 0. -/

namespace Sys2Proof

/-! ### Bytes, least significant first -/

/-- The number the bytes spell, the first byte least significant. -/
def bytesToNat : List Byte → Nat
  | [] => 0
  | b :: bs => b.toNat + 256 * bytesToNat bs

/-- `n` bytes of a number, the least significant first. -/
def natToBytes : Nat → Nat → List Byte
  | 0, _ => []
  | n + 1, v => BitVec.ofNat 8 v :: natToBytes n (v / 256)

/-- The bytes of a record: 13 for the row's word, 1 for the port group, 13 for the frame input. -/
def recordBytes : Nat := 27

/-- A record taken apart. -/
structure Record where
  word : BitVec 104
  group : BitVec 8
  frame : BitVec 104
deriving DecidableEq, Repr

/-- A record's bytes. -/
def Record.bytes (r : Record) : List Byte :=
  natToBytes recordBytes (r.frame ++ r.group ++ r.word).toNat

/-- The record that 27 bytes spell. -/
def Record.ofBytes (bs : List Byte) : Record :=
  let v := BitVec.ofNat 216 (bytesToNat bs)
  { word := v.extractLsb' 0 104, group := v.extractLsb' 104 8, frame := v.extractLsb' 112 104 }

/-! ### Port groups -/

/-- Where a word of the opcode table stands: the control word of a domain (R71, R72), of a primitive (R73) or the reset, or the
ports of one combinational operation (R27). GCTL appears twice: at the source side (GC_INC) and at the destination
side (SYNC_SHIFT), as R73 says. -/
inductive PortGroup where
  | ictl
  | tctl
  | rst
  | wctl
  | rctl
  | gctlSource
  | gctlDest
  | b2g
  | g2b
  | encApp
  | decApp
  | encAdm
  | decAdm
  | decFrame
  | mkApp
  | mkAdm
  | frameChk
deriving DecidableEq, Repr

/-- The number of a port group in a record (assumption log 6). -/
def PortGroup.code : PortGroup → Nat
  | .ictl => 0
  | .tctl => 1
  | .rst => 2
  | .wctl => 3
  | .rctl => 4
  | .gctlSource => 5
  | .gctlDest => 6
  | .b2g => 7
  | .g2b => 8
  | .encApp => 9
  | .decApp => 10
  | .encAdm => 11
  | .decAdm => 12
  | .decFrame => 13
  | .mkApp => 14
  | .mkAdm => 15
  | .frameChk => 16

/-- The port group with a given number. -/
def PortGroup.ofCode : Nat → Option PortGroup
  | 0 => some .ictl
  | 1 => some .tctl
  | 2 => some .rst
  | 3 => some .wctl
  | 4 => some .rctl
  | 5 => some .gctlSource
  | 6 => some .gctlDest
  | 7 => some .b2g
  | 8 => some .g2b
  | 9 => some .encApp
  | 10 => some .decApp
  | 11 => some .encAdm
  | 12 => some .decAdm
  | 13 => some .decFrame
  | 14 => some .mkApp
  | 15 => some .mkAdm
  | 16 => some .frameChk
  | _ => none

/-- The width of the word of a port group: R71, R72, R73, GVAL of R74, APPID29, ADMID11 and FW99 of R60 to R62 (an admin
identifier port is 29 bits wide, R92, R93). -/
def PortGroup.width : PortGroup → Nat
  | .ictl => 4
  | .tctl => 3
  | .rst => 1
  | .wctl => 1
  | .rctl => 1
  | .gctlSource => 1
  | .gctlDest => 1
  | .b2g => 7
  | .g2b => 7
  | .encApp => 29
  | .decApp => 29
  | .encAdm => 29
  | .decAdm => 29
  | .decFrame => 99
  | .mkApp => 99
  | .mkAdm => 99
  | .frameChk => 99

/-- The width of the frame input beside the word: `rx_frame`, `send_frame`, `wdata` (99 bits), or none. -/
def PortGroup.frameWidth : PortGroup → Nat
  | .ictl => 99
  | .tctl => 99
  | .wctl => 99
  | .rst => 0
  | .rctl => 0
  | .gctlSource => 0
  | .gctlDest => 0
  | .b2g => 0
  | .g2b => 0
  | .encApp => 0
  | .decApp => 0
  | .encAdm => 0
  | .decAdm => 0
  | .decFrame => 0
  | .mkApp => 0
  | .mkAdm => 0
  | .frameChk => 0

/-! ### Decoding -/

/-- A bit pattern the row fixes: bits `lo + n - 1 .. lo` of the word are `v`. -/
def fieldIs (w : BitVec 104) (lo n v : Nat) : Bool := w.extractLsb' lo n == BitVec.ofNat n v

/-- A field of the word. -/
abbrev field (w : BitVec 104) (lo n : Nat) : BitVec n := w.extractLsb' lo n

/-- One bit of the word. -/
abbrev bitAt (w : BitVec 104) (k : Nat) : Bool := w.getLsbD k

/-- ICTL of R72: `{rx_valid, tx_done, tx_space_r, err_evt}`; RXDEP, TXSVC and ERREVT by their masks, TICK_I by its own. The
frame input is `rx_frame`, which only RXDEP looks at. -/
def decodeIctl (w : BitVec 104) (f : Frame) : Instr :=
  if bitAt w 3 then .rxdep f (bitAt w 2) (bitAt w 1) (bitAt w 0)
  else if bitAt w 2 then .txsvc (bitAt w 1) (bitAt w 0)
  else if bitAt w 0 then .errevt (bitAt w 1)
  else .tickI (bitAt w 1)

/-- TCTL of R71: `{send_req, tx_space_w, recv_req}`; the frame input is `send_frame`. -/
def decodeTctl (w : BitVec 104) (f : Frame) : Instr :=
  if bitAt w 2 then .send (bitAt w 1) f (bitAt w 0)
  else if bitAt w 0 then .recv (bitAt w 1) f
  else .tickT (bitAt w 1) f

/-- The operation that a word on a port group is, once the bits outside the ports are known to be 0. Only the rows whose pattern
fixes bits (ENC_APP, ENC_ADM, MK_APP, MK_ADM: the pattern of a result, opcode_table.json) can be refused here. -/
def decodeWord (g : PortGroup) (w : BitVec 104) (f : Frame) : Except DecodeError Instr :=
  match g with
  | .ictl => .ok (decodeIctl w f)
  | .tctl => .ok (decodeTctl w f)
  | .rst => .ok (.reset (bitAt w 0))
  | .wctl => .ok (.push (bitAt w 0) f)
  | .rctl => .ok (.pop (bitAt w 0))
  | .gctlSource => .ok (.gcInc (bitAt w 0))
  | .gctlDest => .ok .syncShift
  | .b2g => .ok (.b2g (field w 0 7))
  | .g2b => .ok (.g2b (field w 0 7))
  | .encApp =>
    if fieldIs w 28 1 0 && fieldIs w 12 4 0 then .ok (.encApp (field w 16 12) (field w 4 8) (field w 0 4))
    else .error .fixedBits
  | .decApp => .ok (.decApp (field w 0 29))
  | .encAdm => if fieldIs w 11 18 0 then .ok (.encAdm (field w 0 11)) else .error .fixedBits
  | .decAdm => .ok (.decAdm (field w 0 29))
  | .decFrame => .ok (.decFrame (field w 0 99))
  | .mkApp =>
    if fieldIs w 92 3 2 && fieldIs w 76 4 0 then
      .ok (.mkApp (field w 80 12) (field w 68 8) (field w 64 4) (field w 95 4) (field w 0 64))
    else .error .fixedBits
  | .mkAdm =>
    if fieldIs w 75 19 0 then .ok (.mkAdm (field w 64 11) (bitAt w 94) (field w 95 4) (field w 0 64))
    else .error .fixedBits
  | .frameChk => .ok (.frameChk (field w 0 99))

/-- A record as an operation. -/
def decodeRecord (r : Record) : Except DecodeError Instr :=
  match PortGroup.ofCode r.group.toNat with
  | none => .error (.noSuchPortGroup r.group.toNat)
  | some g =>
    if r.word.toNat < 2 ^ g.width && r.frame.toNat < 2 ^ g.frameWidth then
      decodeWord g r.word (r.frame.setWidth 99)
    else .error .bitsOutsideThePort

/-- THE DECODER: total on any bytes, rejecting by name. -/
def decode (bs : List Byte) : Except DecodeError Instr :=
  if bs.length = recordBytes then decodeRecord (Record.ofBytes bs) else .error (.badLength bs.length)

/-! ### Encoding -/

/-- A Boolean as one bit. -/
abbrev bit (b : Bool) : BitVec 1 := BitVec.ofBool b

/-- The record of an operation, written from the patterns of opcode_table.json and the bit orders of R71 to R73. -/
def encodeRecord (i : Instr) : Record :=
  let r (g : PortGroup) (w : BitVec 104) (f : Frame) : Record :=
    { word := w, group := BitVec.ofNat 8 g.code, frame := f.setWidth 104 }
  match i with
  | .encApp mt mod inst => r .encApp ((0#1 ++ mt ++ 0#4 ++ mod ++ inst).setWidth 104) 0
  | .decApp id => r .decApp (id.setWidth 104) 0
  | .encAdm cmd => r .encAdm (cmd.setWidth 104) 0
  | .decAdm id => r .decAdm (id.setWidth 104) 0
  | .decFrame frame => r .decFrame (frame.setWidth 104) 0
  | .mkApp mt mod inst len data =>
    r .mkApp ((len ++ 0#1 ++ 1#1 ++ 0#1 ++ mt ++ 0#4 ++ mod ++ inst ++ data).setWidth 104) 0
  | .mkAdm cmd rtr len data => r .mkAdm ((len ++ bit rtr ++ 0#1 ++ 0#18 ++ cmd ++ data).setWidth 104) 0
  | .frameChk frame => r .frameChk (frame.setWidth 104) 0
  | .b2g b => r .b2g (b.setWidth 104) 0
  | .g2b g => r .g2b (g.setWidth 104) 0
  | .gcInc inc => r .gctlSource ((bit inc).setWidth 104) 0
  | .syncShift => r .gctlDest 0 0
  | .push winc wdata => r .wctl ((bit winc).setWidth 104) wdata
  | .pop rinc => r .rctl ((bit rinc).setWidth 104) 0
  | .send space frame recvReq => r .tctl ((1#1 ++ bit space ++ bit recvReq).setWidth 104) frame
  | .recv space frame => r .tctl ((0#1 ++ bit space ++ 1#1).setWidth 104) frame
  | .tickT space frame => r .tctl ((0#1 ++ bit space ++ 0#1).setWidth 104) frame
  | .rxdep frame txDone space err => r .ictl ((1#1 ++ bit txDone ++ bit space ++ bit err).setWidth 104) frame
  | .txsvc space err => r .ictl ((0#1 ++ 1#1 ++ bit space ++ bit err).setWidth 104) 0
  | .errevt space => r .ictl ((0#1 ++ 0#1 ++ bit space ++ 1#1).setWidth 104) 0
  | .tickI space => r .ictl ((0#1 ++ 0#1 ++ bit space ++ 0#1).setWidth 104) 0
  | .reset arstN => r .rst ((bit arstN).setWidth 104) 0

/-- THE ENCODER: the bytes of an operation's record. -/
def encode (i : Instr) : List Byte := (encodeRecord i).bytes

/-! ### A word of the opcode table on its own -/

/-- The port group a bare word of the opcode table is read on. The table gives rows of one width the SAME words on different port
groups (0b1 is GC_INC, PUSH, POP, RECV and ERREVT; 0b100 is SEND and TXSVC; R73), so a number alone does not say its row. A
control word is read as ICTL, a wider one of the same bytes (a GVAL) as B2G's operand; of an identifier and of a frame word the
row with the most fixed bits that the word meets is taken: ENC_ADM, ENC_APP, else DEC_APP; MK_ADM, MK_APP, else DEC_FRAME
(assumption log 7). -/
def tableGroup (nbits w : Nat) : PortGroup :=
  let v := BitVec.ofNat 104 w
  if nbits ≤ 8 then if w < 16 then .ictl else .b2g
  else if nbits ≤ 32 then
    if fieldIs v 11 18 0 then .encAdm
    else if fieldIs v 28 1 0 && fieldIs v 12 4 0 then .encApp
    else .decApp
  else if fieldIs v 75 19 0 then .mkAdm
  else if fieldIs v 92 3 2 && fieldIs v 76 4 0 then .mkApp
  else .decFrame

/-- The record of a bare word: its bits above `nbits` are 0, and so is the frame input. -/
def tableBytes (nbits w : Nat) : List Byte :=
  Record.bytes
    { word := BitVec.ofNat 104 (w % 2 ^ nbits), group := BitVec.ofNat 8 (tableGroup nbits (w % 2 ^ nbits)).code, frame := 0 }

/-- The instruction the decoder reads from a word of the opcode table. -/
def decodeTableWord (nbits w : Nat) : Option Instr :=
  match decode (tableBytes nbits w) with
  | .ok i => some i
  | .error _ => none

end Sys2Proof
end

