-- ==== Sys2Proof/Machine/Fetch.lean ====
section
/-! DEFINITION. Reading the next input line, and the coincident pair as a step of its own (spec/00_scope.md R6). -/

namespace Sys2Proof.Machine

/-- An input line, decoded. -/
inductive Fetched where
  | one (i : Instr)
  | pair (a b : Instr) (see : See)
deriving DecidableEq, Repr

/-- The operations of an input line, or why its bytes are none. -/
def fetchLine : InputLine → Except DecodeError Fetched
  | .one bytes =>
    match decode bytes with
    | .ok i => .ok (.one i)
    | .error e => .error e
  | .pair first second see =>
    match decode first, decode second with
    | .ok a, .ok b => .ok (.pair a b see)
    | .error e, _ => .error e
    | .ok _, .error e => .error e

/-- A coincident pair of a TASK and an ISR edge (R6), of the two edges of the AFIFO on its own (R142), or of the two of the GSYNC on
its own (R115). Two operations of any other kinds are no pair of simultaneous edges. -/
def execPair (a b : Instr) (see : See) (s : State) : Result :=
  match taskInputs a, isrInputs b with
  | some t, some i => .next (pairStep t i see s)
  | _, _ =>
    match a, b with
    | .push winc wdata, .pop rinc => .next (unitPair winc wdata rinc see s)
    | .gcInc inc, .syncShift => .next (gsyncPair inc see s)
    | _, _ => .refused .notAPair

end Sys2Proof.Machine
end

