-- ==== Sys2Proof/Machine/Step.lean ====
section
/-! DEFINITION. One step: the environment's next input line happens (spec/00_scope.md R5, R6). -/

namespace Sys2Proof.Machine

/-- One step. With no input line pending no edge falls and nothing changes: 'either clock may be stopped' (R210, R237). -/
def step (s : State) : Host.Outcome State Fault Refusal :=
  match s.pending with
  | [] => .next s
  | l :: rest =>
    match fetchLine l with
    | .error e => .refused (.undecodable e)
    | .ok (.one i) => exec i (s.withPending rest)
    | .ok (.pair a b see) => execPair a b see (s.withPending rest)

/-- `s` with an instruction of the opcode table presented as the next input (assumption log 7). -/
def State.withFetchWord (s : State) (nbits w : Nat) : State :=
  s.withPending (.one (tableBytes nbits w) :: s.pending)

end Sys2Proof.Machine
end

