-- ==== Sys2Proof/Machine/Script.lean ====
section
/-! DEFINITION. The transaction script of spec/30_encoding.md R76 and R77, lowered to the input lines an environment presents. -/

namespace Sys2Proof.Machine

/-- The `data` field of a payload: byte k at `data[8k+7:8k]` (R41, D14). -/
def packData (bytes : List Byte) : BitVec 64 := BitVec.ofNat 64 (bytesToNat bytes)

/-- The frame word of a script frame (R76): `len` is the number of bytes given. -/
def scriptFrameWord : ScriptFrame → Frame
  | .app mt mod inst data => appFrame mt mod inst (BitVec.ofNat 4 data.length) (packData data)
  | .adm cmd rtr data => admFrame cmd rtr (BitVec.ofNat 4 data.length) (packData data)
  | .raw f => f

/-- The operation of a `t-part` (R71, R76); with no SEND the frame input is taken as 0. -/
def tPartOp (p : TPart) : Instr :=
  match p.send, p.recv with
  | some f, r => .send p.space (scriptFrameWord f) r
  | none, true => .recv p.space 0
  | none, false => .tickT p.space 0

/-- The operation of an `i-part` (R72, R76). -/
def iPartOp (p : IPart) : Instr :=
  match p.rxdep, p.txDone, p.err with
  | some f, d, e => .rxdep (scriptFrameWord f) d p.space e
  | none, true, e => .txsvc p.space e
  | none, false, true => .errevt p.space
  | none, false, false => .tickI p.space

/-- A `T:` line with nothing after it. -/
def tQuiet : TPart := ⟨none, false, false⟩

/-- An `I:` line with nothing after it. -/
def iQuiet : IPart := ⟨none, false, false, false⟩

/-- The input lines of a script line: RESET 'asserts and releases `arst_n`' (R76), `T*n:` and `I*n:` repeat, SETTLE is two idle
edges of each domain (R77). -/
def lowerLine : ScriptLine → List InputLine
  | .reset => [.one (encode (.reset false)), .one (encode (.reset true))]
  | .t p => [.one (encode (tPartOp p))]
  | .i p => [.one (encode (iPartOp p))]
  | .pair tp ip see => [.pair (encode (tPartOp tp)) (encode (iPartOp ip)) see]
  | .tTimes n p => List.replicate n (.one (encode (tPartOp p)))
  | .iTimes n p => List.replicate n (.one (encode (iPartOp p)))
  | .settle =>
    [.one (encode (iPartOp iQuiet)), .one (encode (iPartOp iQuiet)), .one (encode (tPartOp tQuiet)), .one (encode (tPartOp tQuiet))]

/-- An environment that presents a script: 'lines are executed top to bottom' (R76). -/
def State.present (s : State) (script : List ScriptLine) : State :=
  { s with pending := s.pending ++ script.flatMap lowerLine }

end Sys2Proof.Machine
end

