-- ==== Sys2Proof/Safety.lean ====
section
/-! DEFINITION. The terms claims use: what a queue holds, the invariant of a queue (spec/10_state.md R24), which registers
belong to which domain (R15, R16, R18, R205), and a run of several operations. -/

namespace Sys2Proof.Machine

/-! ### What a queue holds -/

/-- The frames pushed and not yet popped, oldest first (R24 (e)): the entries from `Q.rbin` on, `occ(Q)` of them. -/
def Afifo.contents (id : ArrayId) (q : Afifo) : List Frame :=
  (List.range q.occ.toNat).map fun k => q.entry id (q.rbin + BitVec.ofNat 7 k)

/-- A queue whose eight registers are 0 (R28), whatever its array holds. -/
def Afifo.cleared (q : Afifo) : Prop := q = q.resetRegs

/-! ### The invariant of a queue -/

/-- R24 (a): the gray copies are the gray codes of the pointers. -/
abbrev Afifo.grayOk (q : Afifo) : Prop := q.wgray = b2g q.wbin ∧ q.rgray = b2g q.rbin

/-- The write domain's ranks are earlier values of `Q.rbin`, `wq1` never older than `wq2` (R24 (d), R117), and the write pointer
is at most 64 counts ahead of the oldest of them (R24 (c)). Counted from `wq2`: wq2 ≤ wq1 ≤ rbin ≤ wbin ≤ wq2 + 64. -/
abbrev Afifo.writeViewOk (q : Afifo) : Prop :=
  (g2b q.wq1Rgray - g2b q.wq2Rgray).toNat ≤ (q.rbin - g2b q.wq2Rgray).toNat ∧
  (q.rbin - g2b q.wq2Rgray).toNat ≤ (q.wbin - g2b q.wq2Rgray).toNat ∧
  (q.wbin - g2b q.wq2Rgray).toNat ≤ 64

/-- The read domain's ranks are earlier values of `Q.wbin`, `rq1` never older than `rq2`, none behind `Q.rbin` (R24 (c), (d), R117).
Counted from `rbin`: rbin ≤ rq2 ≤ rq1 ≤ wbin. -/
abbrev Afifo.readViewOk (q : Afifo) : Prop :=
  (g2b q.rq2Wgray - q.rbin).toNat ≤ (g2b q.rq1Wgray - q.rbin).toNat ∧
  (g2b q.rq1Wgray - q.rbin).toNat ≤ (q.wbin - q.rbin).toNat

/-- Every entry that is held was written (R24 (e), R223), so no free power-up value is ever delivered. -/
abbrev Afifo.heldWritten (q : Afifo) : Prop :=
  ∀ k, k < q.occ.toNat → (memLookup q.mem (entryAddr (q.rbin + BitVec.ofNat 7 k)).toNat).isSome = true

/-- The invariant of one queue (R24), with the canonical form of its array. -/
abbrev Afifo.Inv (q : Afifo) : Prop :=
  q.grayOk ∧ q.writeViewOk ∧ q.readViewOk ∧ q.heldWritten ∧ Mem.wf q.mem = true

/-- While `arst_n` is 0 every register is at 0 (R220). -/
abbrev State.heldInReset (s : State) : Prop :=
  s.arstN = false →
    s.inq = s.inq.resetRegs ∧ s.outq = s.outq.resetRegs ∧ s.txRun = false ∧ s.gsync = Gsync.fresh ∧
      s.afifo = s.afifo.resetRegs

/-- The invariant of the machine. -/
abbrev State.Inv (s : State) : Prop :=
  s.inq.Inv ∧ s.outq.Inv ∧ s.afifo.Inv ∧ s.gsync.srcGray = b2g s.gsync.srcBin ∧ s.heldInReset

/-! ### Who owns what -/

/-- The registers of the write domain and the array are the same in two queues (R15). -/
abbrev Afifo.sameWriteSide (q q' : Afifo) : Prop :=
  q'.wbin = q.wbin ∧ q'.wgray = q.wgray ∧ q'.wq1Rgray = q.wq1Rgray ∧ q'.wq2Rgray = q.wq2Rgray ∧ q'.mem = q.mem

/-- The registers of the read domain are the same in two queues (R16). -/
abbrev Afifo.sameReadSide (q q' : Afifo) : Prop :=
  q'.rbin = q.rbin ∧ q'.rgray = q.rgray ∧ q'.rq1Wgray = q.rq1Wgray ∧ q'.rq2Wgray = q.rq2Wgray

/-- What belongs to neither clock domain of the block is the same in two states: the units on their own, the reset level, the
parameter, the pending inputs, the outputs of the CODEC and of the units. -/
abbrev State.sameOutside (s t : State) : Prop :=
  t.gsync = s.gsync ∧ t.afifo = s.afifo ∧ t.arstN = s.arstN ∧ t.rxStdFilter = s.rxStdFilter ∧ t.pending = s.pending ∧
    t.ports.codec = s.ports.codec ∧ t.ports.gray = s.ports.gray ∧ t.ports.write = s.ports.write ∧ t.ports.read = s.ports.read

/-- Nothing the ISR domain owns changed (R161: a TASK edge writes no ISR-domain register), nor anything outside the domains. -/
abbrev State.taskFrame (s t : State) : Prop :=
  s.inq.sameWriteSide t.inq ∧ s.outq.sameReadSide t.outq ∧ t.txRun = s.txRun ∧ t.ports.isr = s.ports.isr ∧ s.sameOutside t

/-- Nothing the TASK domain owns changed (R166: an ISR edge writes no TASK-domain register), nor anything outside the domains. -/
abbrev State.isrFrame (s t : State) : Prop :=
  s.outq.sameWriteSide t.outq ∧ s.inq.sameReadSide t.inq ∧ t.ports.task = s.ports.task ∧ s.sameOutside t

/-- The operation is a TASK edge of the block (R5). -/
def isTaskEdge (i : Instr) : Bool := i.kind == .task

/-- The operation is an ISR edge of the block (R5). -/
def isIsrEdge (i : Instr) : Bool := i.kind == .isr

/-! ### Runs -/

/-- Several operations one after the other, stopping at the first that does not answer a next state. -/
def execAll : List Instr → State → Result
  | [], s => .next s
  | i :: is, s =>
    match exec i s with
    | .next t => execAll is t
    | .fault r => .fault r
    | .refused r => .refused r

end Sys2Proof.Machine
end

