-- ==== Sys2Proof/Certificates/Slice0/Obligations.lean ====
section
/-! DEFINITION. The statements for the provers, from the numbered rules of spec/. An operation that is a clock edge is stated with the
whole edge: its outputs, the registers it writes and, by an equation or a frame, everything it leaves. Outputs are read
from the ports that State records (assumption log 8). -/

open Sys2Proof Sys2Proof.Machine

/-! ### CODEC (spec/40_codec.md) -/

/-- ENC_APP (R90): it always completes; `enc_id` is the concatenation, which is the normative OR of shifted fields, and nothing else
changes. -/
def Obligations.EncAppPacksTheTriple : Prop :=
  ∀ (mt : BitVec 12) (mod : BitVec 8) (inst : BitVec 4) (s : State),
    exec (.encApp mt mod inst) s =
      .next { s with ports := { s.ports with codec := { s.ports.codec with
        encId := (0#1 ++ mt ++ 0#4 ++ mod ++ inst : BitVec 29) } } } ∧
    (0#1 ++ mt ++ 0#4 ++ mod ++ inst : BitVec 29) =
      (mt.setWidth 29 <<< 16) ||| (mod.setWidth 29 <<< 4) ||| inst.setWidth 29

/-- DEC_APP (R91): it always completes; the fields are slices, `dec_resv_nz` is the OR of the five reserved bits (the mask form of
R191), and nothing else changes. -/
def Obligations.DecAppSlicesTheIdentifier : Prop :=
  ∀ (id : Ident) (s : State),
    exec (.decApp id) s =
      .next { s with ports := { s.ports with codec := { s.ports.codec with
        decMt := id.extractLsb' 16 12
        decMod := id.extractLsb' 4 8
        decInst := id.extractLsb' 0 4
        decResvNz := id.getLsbD 28 || id.getLsbD 15 || id.getLsbD 14 || id.getLsbD 13 || id.getLsbD 12 } } } ∧
    (id.getLsbD 28 || id.getLsbD 15 || id.getLsbD 14 || id.getLsbD 13 || id.getLsbD 12) = (id &&& 0x1000F000#29 != 0)

/-- ENC_ADM (R92): it always completes; the low 11 bits are the command, bits 28:11 are 0, and nothing else changes. -/
def Obligations.EncAdmZeroExtends : Prop :=
  ∀ (cmd : AdmCmd) (s : State),
    exec (.encAdm cmd) s =
      .next { s with ports := { s.ports with codec := { s.ports.codec with admIdOut := (0#18 ++ cmd : BitVec 29) } } }

/-- DEC_ADM (R93): it always completes, takes the low 11 bits and ignores the rest; after ENC_ADM it gives the command
back, and ENC_ADM after it gives the identifier back exactly when bits 28:11 are 0. -/
def Obligations.DecAdmTakesTheLowBits : Prop :=
  ∀ (id : Ident) (s : State),
    exec (.decAdm id) s =
      .next { s with ports := { s.ports with codec := { s.ports.codec with admCmdOut := id.extractLsb' 0 11 } } } ∧
    (∀ (cmd : AdmCmd) (t u : State), exec (.encAdm cmd) s = .next t → exec (.decAdm t.ports.codec.admIdOut) t = .next u →
      u.ports.codec.admCmdOut = cmd) ∧
    (∀ t u : State, exec (.decAdm id) s = .next t → exec (.encAdm t.ports.codec.admCmdOut) t = .next u →
      (u.ports.codec.admIdOut = id ↔ id.extractLsb' 11 18 = 0))

/-- DEC_FRAME (R94): it always completes; `ext` = 1 takes the application path with `cls_cmd` 0, `ext` = 0 the admin path with the
application outputs 0; `rtr`, `len` and `data` are not looked at, and nothing else changes. -/
def Obligations.DecFrameTakesOnePath : Prop :=
  ∀ (f : Frame) (s : State),
    (f.getLsbD 93 = true →
      exec (.decFrame f) s =
        .next { s with ports := { s.ports with codec := { s.ports.codec with
          clsIsApp := true
          clsMt := f.extractLsb' (64 + 16) 12
          clsMod := f.extractLsb' (64 + 4) 8
          clsInst := f.extractLsb' 64 4
          clsResvNz := f.getLsbD 92 || f.getLsbD 79 || f.getLsbD 78 || f.getLsbD 77 || f.getLsbD 76
          clsCmd := 0 } } }) ∧
    (f.getLsbD 93 = false →
      exec (.decFrame f) s =
        .next { s with ports := { s.ports with codec := { s.ports.codec with
          clsIsApp := false
          clsMt := 0
          clsMod := 0
          clsInst := 0
          clsResvNz := false
          clsCmd := f.extractLsb' 64 11 } } })

/-- MK_APP (R95): it always completes; the frame word has `ext` = 1, `rtr` = 0, the identifier ENC_APP makes, `mk_len` and `mk_data`
unchanged, and nothing else changes. -/
def Obligations.MkAppBuildsTheFrameWord : Prop :=
  ∀ (mt : BitVec 12) (mod : BitVec 8) (inst : BitVec 4) (len : BitVec 4) (data : BitVec 64) (s : State),
    exec (.mkApp mt mod inst len data) s =
      .next { s with ports := { s.ports with codec := { s.ports.codec with
        mkAppFrame := (len ++ 0#1 ++ 1#1 ++ (0#1 ++ mt ++ 0#4 ++ mod ++ inst) ++ data : BitVec 99) } } }

/-- MK_ADM (R96): it always completes; the frame word has `ext` = 0, `rtr` as given, the identifier ENC_ADM makes, `mk_len` and
`mk_data` unchanged, and nothing else changes. -/
def Obligations.MkAdmBuildsTheFrameWord : Prop :=
  ∀ (cmd : AdmCmd) (rtr : Bool) (len : BitVec 4) (data : BitVec 64) (s : State),
    exec (.mkAdm cmd rtr len data) s =
      .next { s with ports := { s.ports with codec := { s.ports.codec with
        mkAdmFrame := (len ++ BitVec.ofBool rtr ++ 0#1 ++ (0#18 ++ cmd) ++ data : BitVec 99) } } }

/-- FRAME_CHK (R97): it always completes; `frame_ok` is 1 exactly when `len` ≤ 8 and, in a standard frame, `id[28:11]` is 0;
nothing else changes. -/
def Obligations.FrameChkIsTheInvariant : Prop :=
  ∀ (f : Frame) (s : State),
    exec (.frameChk f) s =
      .next { s with ports := { s.ports with codec := { s.ports.codec with
        frameOk := decide ((f.extractLsb' 95 4).toNat ≤ 8 ∧ (f.getLsbD 93 = true ∨ f.extractLsb' 75 18 = 0#18)) } } }

/-- R98: DEC_APP after ENC_APP gives every triple back with `dec_resv_nz` = 0, and different triples have different
identifiers. -/
def Obligations.DecAppAfterEncApp : Prop :=
  (∀ (mt : BitVec 12) (mod : BitVec 8) (inst : BitVec 4) (s : State),
    ∃ t u, exec (.encApp mt mod inst) s = .next t ∧ exec (.decApp t.ports.codec.encId) t = .next u ∧
      u.ports.codec.decMt = mt ∧ u.ports.codec.decMod = mod ∧ u.ports.codec.decInst = inst ∧
      u.ports.codec.decResvNz = false) ∧
  (∀ (mt mt' : BitVec 12) (mod mod' : BitVec 8) (inst inst' : BitVec 4) (s t t' : State),
    exec (.encApp mt mod inst) s = .next t → exec (.encApp mt' mod' inst') s = .next t' →
    t.ports.codec.encId = t'.ports.codec.encId → mt = mt' ∧ mod = mod' ∧ inst = inst')

/-- R99: ENC_APP after DEC_APP clears the reserved bits, so it gives the identifier back exactly when `dec_resv_nz` is 0. -/
def Obligations.EncAppAfterDecApp : Prop :=
  ∀ (id : Ident) (s : State), ∃ t u,
    exec (.decApp id) s = .next t ∧
    exec (.encApp t.ports.codec.decMt t.ports.codec.decMod t.ports.codec.decInst) t = .next u ∧
    u.ports.codec.encId = id &&& 0x0FFF0FFF#29 ∧
    (u.ports.codec.encId = id ↔ t.ports.codec.decResvNz = false)

/-- The frame words MK_APP and MK_ADM build, looked at by DEC_FRAME and FRAME_CHK: the path and the fields they were built from,
and `frame_ok` exactly when `mk_len` ≤ 8. -/
def Obligations.BuiltFramesDecodeBack : Prop :=
  (∀ (mt : BitVec 12) (mod : BitVec 8) (inst : BitVec 4) (len : BitVec 4) (data : BitVec 64) (s : State),
    ∃ t u v, exec (.mkApp mt mod inst len data) s = .next t ∧ exec (.decFrame t.ports.codec.mkAppFrame) t = .next u ∧
      exec (.frameChk u.ports.codec.mkAppFrame) u = .next v ∧
      u.ports.codec.clsIsApp = true ∧ u.ports.codec.clsMt = mt ∧ u.ports.codec.clsMod = mod ∧
      u.ports.codec.clsInst = inst ∧ u.ports.codec.clsResvNz = false ∧ u.ports.codec.clsCmd = 0 ∧
      v.ports.codec.frameOk = decide (len.toNat ≤ 8)) ∧
  (∀ (cmd : AdmCmd) (rtr : Bool) (len : BitVec 4) (data : BitVec 64) (s : State),
    ∃ t u v, exec (.mkAdm cmd rtr len data) s = .next t ∧ exec (.decFrame t.ports.codec.mkAdmFrame) t = .next u ∧
      exec (.frameChk u.ports.codec.mkAdmFrame) u = .next v ∧
      u.ports.codec.clsIsApp = false ∧ u.ports.codec.clsCmd = cmd ∧ u.ports.codec.clsMt = 0 ∧ u.ports.codec.clsMod = 0 ∧
      u.ports.codec.clsInst = 0 ∧ u.ports.codec.clsResvNz = false ∧
      v.ports.codec.frameOk = decide (len.toNat ≤ 8))

/-- R102: classification is total over every legal parameter table: a listed code has its row's name, an unlisted one the
`unknown_variant`, and the raw code is kept. R7: under every legal assignment of the enumerators each `MOD_`, `INST_` and `MT_`
parameter is the value of its name, different names of a field have different values, each value classifies as its name, and
so do the fields DEC_FRAME gives of a frame that MK_APP built from three names' values (E7). That a component identity is a
number without a width is the model's choice (assumption log 12). -/
def Obligations.ClassificationIsTotalAndKeepsTheCode : Prop :=
  (∀ (ν : Type) (w : Nat) (t : CodeTable ν w), t.legal → ∀ c : BitVec w,
    (classify t c).2 = c ∧
    (∀ n : ν, (n, c) ∈ t.rows → (classify t c).1 = n) ∧
    ((∀ n : ν, (n, c) ∉ t.rows) → (classify t c).1 = t.unknown)) ∧
  (∀ e : Enumerators,
    valueMod e .all = some e.mod.all ∧ valueMod e .any = some e.mod.any ∧ valueMod e .undefined = some e.mod.undefined ∧
    valueMod e .reserved = some e.mod.reserved ∧ valueMod e .control = some e.mod.control ∧
    valueMod e .sensor = some e.mod.sensor ∧ valueMod e .pump = some e.mod.pump ∧
    valueInst e .all = some e.inst.all ∧ valueInst e .any = some e.inst.any ∧
    valueInst e .undefined = some e.inst.undefined ∧ valueInst e .reserved = some e.inst.reserved ∧
    valueInst e .exclusive = some e.inst.exclusive ∧
    valueMt e .pingRequest = some e.msg.pingRequest ∧ valueMt e .pingResponse = some e.msg.pingResponse ∧
    valueComponent e .commonCore = some e.commonCore) ∧
  (∀ e : Enumerators, e.legal →
    (∀ n m v, valueMod e n = some v → valueMod e m = some v → n = m) ∧
    (∀ n m v, valueInst e n = some v → valueInst e m = some v → n = m) ∧
    (∀ n m v, valueMt e n = some v → valueMt e m = some v → n = m) ∧
    (∀ n m v, valueAdm e n = some v → valueAdm e m = some v → n = m) ∧
    (∀ n m v, valueComponent e n = some v → valueComponent e m = some v → n = m)) ∧
  (∀ (e : Enumerators) (nt : MsgName) (nm : ModName) (ni : InstName) (mt : BitVec 12) (mod : BitVec 8) (inst : BitVec 4)
      (len : BitVec 4) (data : BitVec 64) (s : State),
    e.legal → valueMt e nt = some mt → valueMod e nm = some mod → valueInst e ni = some inst →
    classMt e.msg.table mt = (nt, mt) ∧ classMod e.mod.table mod = (nm, mod) ∧ classInst e.inst.table inst = (ni, inst) ∧
    ∃ t u, exec (.mkApp mt mod inst len data) s = .next t ∧ exec (.decFrame t.ports.codec.mkAppFrame) t = .next u ∧
      classMt e.msg.table u.ports.codec.clsMt = (nt, mt) ∧ classMod e.mod.table u.ports.codec.clsMod = (nm, mod) ∧
      classInst e.inst.table u.ports.codec.clsInst = (ni, inst))

/-! ### GSYNC (spec/41_gray_sync.md) -/

/-- B2G (R110): it always completes with `b ^ (b >> 1)`; at every width bit k of the result is `b[k+1] ^ b[k]`. -/
def Obligations.B2gIsShiftAndXor : Prop :=
  (∀ (b : Ptr) (s : State),
    exec (.b2g b) s = .next { s with ports := { s.ports with gray := { s.ports.gray with gray := b ^^^ (b >>> 1) } } }) ∧
  (∀ (n : Nat) (b : BitVec n) (k : Nat), k < n → (b2g b).getLsbD k = (b.getLsbD (k + 1) ^^ b.getLsbD k))

/-- G2B (R111): it always completes; at every width it is the running exclusive or from the top bit, the inverse of B2G on
both sides. -/
def Obligations.G2bInvertsB2g : Prop :=
  (∀ (g : Ptr) (s : State),
    exec (.g2b g) s = .next { s with ports := { s.ports with gray := { s.ports.gray with
      bin := g ^^^ (g >>> 1) ^^^ (g >>> 2) ^^^ (g >>> 3) ^^^ (g >>> 4) ^^^ (g >>> 5) ^^^ (g >>> 6) } } }) ∧
  (∀ (n : Nat) (g : BitVec n) (k : Nat), k < n → (g2b g).getLsbD k = (g.getLsbD k ^^ (g2b g).getLsbD (k + 1))) ∧
  (∀ (n : Nat) (b : BitVec n), g2b (b2g b) = b ∧ b2g (g2b b) = b)

/-- R112: at every width the gray codes of a count and of the next one, the wrap included, differ in exactly one bit; the binary
codes of 63 and 64 differ in all seven. -/
def Obligations.GrayCodesDifferInOneBit : Prop :=
  (∀ (n : Nat), 0 < n → ∀ b : BitVec n, ∃ k, k < n ∧
    ∀ j, (b2g b ^^^ b2g (b + 1)).getLsbD j = decide (j = k)) ∧
  (63#7 ^^^ 64#7 = BitVec.allOnes 7)

/-- GC_INC (R113) with reset released: it completes; with `inc` = 1 both source registers take the next count, with `inc` = 0 neither;
nothing else changes. If `src_gray` was the gray code of `src_bin` it stays so, and a step changes one bit of it.
The GSYNC on its own as a unit of State is the model's choice (assumption log 9). -/
def Obligations.GcIncStepsTheCounter : Prop :=
  ∀ (inc : Bool) (s : State), s.arstN = true →
    exec (.gcInc inc) s =
      .next { s with gsync := { s.gsync with
        srcBin := if inc then s.gsync.srcBin + 1 else s.gsync.srcBin
        srcGray := if inc then b2g (s.gsync.srcBin + 1) else s.gsync.srcGray } } ∧
    (s.gsync.srcGray = b2g s.gsync.srcBin → ∀ t, exec (.gcInc inc) s = .next t →
      t.gsync.srcGray = b2g t.gsync.srcBin ∧
      (inc = true → ∃ k, k < 7 ∧ ∀ j, (s.gsync.srcGray ^^^ t.gsync.srcGray).getLsbD j = decide (j = k)))

/-- SYNC_SHIFT (R114) with reset released: it completes; `dst_q2` takes `dst_q1`, `dst_q1` the current `src_gray`, and nothing
else changes.
The GSYNC on its own as a unit of State is the model's choice (assumption log 9). -/
def Obligations.SyncShiftMovesOneRank : Prop :=
  ∀ s : State, s.arstN = true →
    exec .syncShift s =
      .next { s with gsync := { s.gsync with dstQ1 := s.gsync.srcGray, dstQ2 := s.gsync.dstQ1 } }

/-- A SYNC_SHIFT that coincides with a GC_INC (R115): the source counts as if alone, `dst_q2` takes the old `dst_q1`, and `dst_q1`
takes `src_gray` from before or from after the count, either one and nothing else.
The GSYNC on its own as a unit of State is the model's choice (assumption log 9). -/
def Obligations.CoincidentSampleIsOldOrNew : Prop :=
  ∀ (inc : Bool) (see : See) (s : State), s.arstN = true →
    ∃ t u, exec (.gcInc inc) s = .next u ∧ execPair (.gcInc inc) .syncShift see s = .next t ∧
      t = { s with gsync :=
        { srcBin := u.gsync.srcBin
          srcGray := u.gsync.srcGray
          dstQ1 := if see.s1 then u.gsync.srcGray else s.gsync.srcGray
          dstQ2 := s.gsync.dstQ1 } }

/-! ### AFIFO (spec/42_afifo.md) -/

/-- R20 to R23 where the gray copies agree with the pointers (R24 (a)): `wfull` is 'the write domain counts 64', `rempty` is 'the read
domain counts 0'. -/
def Obligations.FlagsMeanSixtyFourAndZero : Prop :=
  ∀ q : Afifo, q.wgray = b2g q.wbin → q.rgray = b2g q.rbin →
    (q.wfull = true ↔ q.wbin - g2b q.wq2Rgray = 64#7) ∧
    (q.rempty = true ↔ g2b q.rq2Wgray - q.rbin = 0#7)

/-- PUSH (R131, R133) on a queue that is not full, reset released: it completes; the frame stands at the address of the old write
pointer and every other entry reads as before; both write pointer registers step; the ranks shift; nothing else
changes.
The AFIFO on its own as a unit of State is the model's choice (assumption log 9). -/
def Obligations.PushStoresAndSteps : Prop :=
  ∀ (f : Frame) (s : State), s.arstN = true → s.afifo.wgray ≠ s.afifo.wq2Rgray ^^^ 0b1100000#7 →
    ∃ t, exec (.push true f) s = .next t ∧
      t = { s with
        afifo :=
          { s.afifo with
            wbin := s.afifo.wbin + 1
            wgray := b2g (s.afifo.wbin + 1)
            wq1Rgray := s.afifo.rgray
            wq2Rgray := s.afifo.wq1Rgray
            mem := t.afifo.mem }
        ports := { s.ports with write :=
          { wrOk := true, wrDrop := false, wfull := false, wcount := s.afifo.wbin - g2b s.afifo.wq2Rgray } } } ∧
      ∀ a : Addr, memRead .unit t.afifo.mem a =
        if a = s.afifo.wbin.extractLsb' 0 6 then f else memRead .unit s.afifo.mem a

/-- POP (R132, R134) on a queue that is not empty, reset released: it completes; `rdata` is the entry at the old read pointer, both
read pointer registers step, the ranks shift, no entry is written, nothing else changes.
The AFIFO on its own as a unit of State is the model's choice (assumption log 9). -/
def Obligations.PopDeliversAndSteps : Prop :=
  ∀ s : State, s.arstN = true → s.afifo.rgray ≠ s.afifo.rq2Wgray →
    exec (.pop true) s =
      .next { s with
        afifo :=
          { s.afifo with
            rbin := s.afifo.rbin + 1
            rgray := b2g (s.afifo.rbin + 1)
            rq1Wgray := s.afifo.wgray
            rq2Wgray := s.afifo.rq1Wgray }
        ports := { s.ports with read :=
          { rdValid := true
            rdata := memRead .unit s.afifo.mem (s.afifo.rbin.extractLsb' 0 6)
            rdPop := true
            rdEmpty := false
            rempty := false
            rcount := g2b s.afifo.rq2Wgray - s.afifo.rbin } } }

/-- A write edge without `winc` and a read edge without `rinc` (R133, R134), reset released: they complete, shift the ranks of their
own domain and change nothing else of the state but their own outputs.
The AFIFO on its own as a unit of State is the model's choice (assumption log 9). -/
def Obligations.EdgesWithoutRequestOnlyShift : Prop :=
  ∀ (f : Frame) (s : State), s.arstN = true →
    (∃ t, exec (.push false f) s = .next t ∧ t.ports.write.wrOk = false ∧ t.ports.write.wrDrop = false ∧
      t = { s with
        afifo := { s.afifo with wq1Rgray := s.afifo.rgray, wq2Rgray := s.afifo.wq1Rgray }
        ports := { s.ports with write := t.ports.write } }) ∧
    (∃ t, exec (.pop false) s = .next t ∧ t.ports.read.rdPop = false ∧ t.ports.read.rdEmpty = false ∧
      t = { s with
        afifo := { s.afifo with rq1Wgray := s.afifo.wgray, rq2Wgray := s.afifo.rq1Wgray }
        ports := { s.ports with read := t.ports.read } })

/-- R137, for the AFIFO on its own, for SEND into OUTQ and for RXDEP into INQ, reset released: a push into a full queue is reported
and changes nothing of the queue but the ranks, which shift; what the queue holds is as before.
The AFIFO on its own as a unit of State is the model's choice (assumption log 9). -/
def Obligations.FailedPushChangesNothing : Prop :=
  ∀ (s : State) (f : Frame), s.arstN = true →
    (s.afifo.wfull = true → ∃ t, exec (.push true f) s = .next t ∧ t.ports.write.wrOk = false ∧ t.ports.write.wrDrop = true ∧
      t.afifo = { s.afifo with wq1Rgray := s.afifo.rgray, wq2Rgray := s.afifo.wq1Rgray } ∧
      t.afifo.contents .unit = s.afifo.contents .unit) ∧
    (∀ space recvReq : Bool, s.outq.wfull = true → ¬ (s.outq.wcount = 0 ∧ space = true) →
      ∃ t, exec (.send space f recvReq) s = .next t ∧ t.ports.task.sendStatus = .dropped ∧ t.ports.task.bypValid = false ∧
        t.outq = { s.outq with wq1Rgray := s.outq.rgray, wq2Rgray := s.outq.wq1Rgray } ∧
        t.outq.contents .outq = s.outq.contents .outq) ∧
    (∀ txDone space err : Bool, s.inq.wfull = true → (f.getLsbD 93 = true ∨ s.rxStdFilter = false) →
      ∃ t, exec (.rxdep f txDone space err) s = .next t ∧ t.ports.isr.inOk = false ∧ t.ports.isr.inDrop = true ∧
        t.inq = { s.inq with wq1Rgray := s.inq.rgray, wq2Rgray := s.inq.wq1Rgray } ∧
        t.inq.contents .inq = s.inq.contents .inq)

/-- R138, for the AFIFO on its own, for RECV on INQ and for TXSVC on OUTQ, reset released: a pop of a queue that is empty in the read
domain's view is reported where it was asked for and changes nothing of the queue but the ranks, which shift.
The AFIFO on its own as a unit of State is the model's choice (assumption log 9). -/
def Obligations.FailedPopChangesNothing : Prop :=
  ∀ s : State, s.arstN = true →
    (s.afifo.rempty = true → ∃ t, exec (.pop true) s = .next t ∧ t.ports.read.rdValid = false ∧ t.ports.read.rdPop = false ∧
      t.ports.read.rdEmpty = true ∧
      t.afifo = { s.afifo with rq1Wgray := s.afifo.wgray, rq2Wgray := s.afifo.rq1Wgray }) ∧
    (∀ (space : Bool) (f : Frame), s.inq.rempty = true →
      ∃ t, exec (.recv space f) s = .next t ∧ t.ports.task.recvValid = false ∧ t.ports.task.recvEmpty = true ∧
        t.inq = { s.inq with rq1Wgray := s.inq.wgray, rq2Wgray := s.inq.rq1Wgray }) ∧
    (∀ space err : Bool, s.outq.rempty = true →
      ∃ t, exec (.txsvc space err) s = .next t ∧ t.ports.isr.txValid = false ∧ t.txRun = false ∧
        t.outq = { s.outq with rq1Wgray := s.outq.wgray, rq2Wgray := s.outq.rq1Wgray })

/-- R142 for the AFIFO on its own, reset released: a write edge and a read edge at one instant leave what each leaves alone, except
the two first ranks, each of which holds the old or the new value of the pointer it follows, as `see` says.
The AFIFO on its own as a unit of State is the model's choice (assumption log 9). -/
def Obligations.CoincidentPushAndPop : Prop :=
  ∀ (winc : Bool) (f : Frame) (rinc : Bool) (see : See) (s : State), s.arstN = true →
    ∃ t w r, exec (.push winc f) s = .next w ∧ exec (.pop rinc) s = .next r ∧
      execPair (.push winc f) (.pop rinc) see s = .next t ∧
      t = { s with
        afifo :=
          { wbin := w.afifo.wbin
            wgray := w.afifo.wgray
            wq1Rgray := if see.s1 then r.afifo.rgray else s.afifo.rgray
            wq2Rgray := w.afifo.wq2Rgray
            rbin := r.afifo.rbin
            rgray := r.afifo.rgray
            rq1Wgray := if see.s2 then w.afifo.wgray else s.afifo.wgray
            rq2Wgray := r.afifo.rq2Wgray
            mem := w.afifo.mem }
        ports := { s.ports with write := w.ports.write, read := r.ports.read } }

/-- R47 and R140 for the AFIFO on its own, in every state with the invariant: PUSH appends the frame exactly when `wr_ok`, POP removes the
oldest frame exactly when `rd_pop` and `rdata` is that frame.
The AFIFO on its own as a unit of State is the model's choice (assumption log 9). -/
def Obligations.UnitQueueIsFirstInFirstOut : Prop :=
  ∀ s : State, s.afifo.Inv → s.arstN = true →
    (∀ (winc : Bool) (f : Frame), ∃ t, exec (.push winc f) s = .next t ∧
      t.afifo.contents .unit = s.afifo.contents .unit ++ (if t.ports.write.wrOk then [f] else [])) ∧
    (∀ rinc : Bool, ∃ t, exec (.pop rinc) s = .next t ∧
      t.afifo.contents .unit = (s.afifo.contents .unit).drop (if t.ports.read.rdPop then 1 else 0) ∧
      (t.ports.read.rdValid = true → (s.afifo.contents .unit).head? = some t.ports.read.rdata))

/-- R136: in every queue with the invariant `rcount ≤ occ ≤ wcount ≤ 64`; so a queue that does not show full has room and a queue that
does not show empty has a frame, of which the next to be read was written. -/
def Obligations.ViewsErrOnTheSafeSide : Prop :=
  ∀ q : Afifo, q.Inv →
    q.rcount.toNat ≤ q.occ.toNat ∧ q.occ.toNat ≤ q.wcount.toNat ∧ q.wcount.toNat ≤ 64 ∧
    (q.wfull = false → q.occ.toNat < 64) ∧
    (q.rempty = false → 0 < q.occ.toNat ∧ (memLookup q.mem (entryAddr q.rbin).toNat).isSome = true)

/-! ### The TASK edge (spec/43_channels.md) -/

/-- SEND (R162, R163) with reset released: it always completes; the outcome is BYPASSED, QUEUED or DROPPED by the write domain's
view and `tx_space_w`; only QUEUED writes OUTQ's array (at the address of the old write pointer) and steps the pointer; the write
ranks shift; without RECV nothing of INQ changes but its read ranks; everything the TASK domain does not own stays. -/
def Obligations.SendBypassesQueuesOrDrops : Prop :=
  ∀ (space : Bool) (f : Frame) (recvReq : Bool) (s : State), s.arstN = true →
    ∃ t, exec (.send space f recvReq) s = .next t ∧
      t.ports.task.sendStatus.code =
        (if s.outq.wbin - g2b s.outq.wq2Rgray = 0 ∧ space = true then 1#2
         else if s.outq.wgray = s.outq.wq2Rgray ^^^ 0b1100000#7 then 3#2 else 2#2) ∧
      t.ports.task.bypValid = (t.ports.task.sendStatus.code == 1#2) ∧ t.ports.task.bypFrame = f ∧
      t.ports.task.outWfull = (s.outq.wgray == s.outq.wq2Rgray ^^^ 0b1100000#7) ∧
      t.ports.task.outWcount = s.outq.wbin - g2b s.outq.wq2Rgray ∧
      t.outq.wq1Rgray = s.outq.rgray ∧ t.outq.wq2Rgray = s.outq.wq1Rgray ∧
      (t.ports.task.sendStatus.code = 2#2 →
        t.outq.wbin = s.outq.wbin + 1 ∧ t.outq.wgray = b2g (s.outq.wbin + 1) ∧
        ∀ a : Addr, memRead .outq t.outq.mem a =
          if a = s.outq.wbin.extractLsb' 0 6 then f else memRead .outq s.outq.mem a) ∧
      (t.ports.task.sendStatus.code ≠ 2#2 →
        t.outq.wbin = s.outq.wbin ∧ t.outq.wgray = s.outq.wgray ∧ t.outq.mem = s.outq.mem) ∧
      (recvReq = false →
        t.inq = { s.inq with rq1Wgray := s.inq.wgray, rq2Wgray := s.inq.rq1Wgray } ∧ t.ports.task.recvEmpty = false) ∧
      s.taskFrame t

/-- RECV (R165) with reset released, alone or at the edge of a SEND: it always completes; `recv_frame` is the entry at the read
pointer; the pointer steps exactly when `recv_valid`, else RECV_EMPTY; the read ranks shift; no entry is written; RECV alone writes
nothing of OUTQ but its write ranks; everything the TASK domain does not own stays. -/
def Obligations.RecvTakesTheOldestFrame : Prop :=
  ∀ (space : Bool) (f : Frame) (s : State), s.arstN = true → ∀ i : Instr, i = .recv space f ∨ i = .send space f true →
    ∃ t, exec i s = .next t ∧
      t.ports.task.recvValid = (s.inq.rgray != s.inq.rq2Wgray) ∧
      t.ports.task.recvEmpty = (s.inq.rgray == s.inq.rq2Wgray) ∧
      t.ports.task.recvFrame = memRead .inq s.inq.mem (s.inq.rbin.extractLsb' 0 6) ∧
      t.ports.task.inRcount = g2b s.inq.rq2Wgray - s.inq.rbin ∧
      t.inq.rbin = (if s.inq.rgray = s.inq.rq2Wgray then s.inq.rbin else s.inq.rbin + 1) ∧
      t.inq.rgray = (if s.inq.rgray = s.inq.rq2Wgray then s.inq.rgray else b2g (s.inq.rbin + 1)) ∧
      t.inq.rq1Wgray = s.inq.wgray ∧ t.inq.rq2Wgray = s.inq.rq1Wgray ∧
      (i = .recv space f →
        t.outq = { s.outq with wq1Rgray := s.outq.rgray, wq2Rgray := s.outq.wq1Rgray } ∧
        t.ports.task.sendStatus = .idle ∧ t.ports.task.bypValid = false ∧ t.ports.task.bypFrame = f) ∧
      s.taskFrame t

/-- TICK_T (R171) with reset released: it always completes; it shifts the two synchronisers of the TASK domain, shows the TASK outputs
(`send_status` IDLE, no bypass), and changes nothing else; `tx_space_w` is ignored. -/
def Obligations.TickTOnlyShifts : Prop :=
  ∀ (space : Bool) (f : Frame) (s : State), s.arstN = true →
    exec (.tickT space f) s =
      .next { s with
        outq := { s.outq with wq1Rgray := s.outq.rgray, wq2Rgray := s.outq.wq1Rgray }
        inq := { s.inq with rq1Wgray := s.inq.wgray, rq2Wgray := s.inq.rq1Wgray }
        ports := { s.ports with task :=
          { sendStatus := .idle
            bypValid := false
            bypFrame := f
            outWfull := s.outq.wfull
            outWcount := s.outq.wcount
            recvValid := !s.inq.rempty
            recvFrame := memRead .inq s.inq.mem (s.inq.rbin.extractLsb' 0 6)
            inRcount := s.inq.rcount
            recvEmpty := false } } }

/-- R161, R166: what an edge writes depends only on its own domain's registers, the two gray registers it samples, the entry it shows,
`arst_n` and, for an ISR edge, the parameter `RX_STD_FILTER`: two states that agree on those agree after the edge on every
register of its domain, on the array its domain writes and on its domain's outputs. The first clause is the TASK edge, the second
the ISR edge. -/
def Obligations.EdgesReadOnlyTheirOwnDomain : Prop :=
  (∀ (i : Instr) (s s' t t' : State), isTaskEdge i = true →
    s.arstN = s'.arstN → s.outq.sameWriteSide s'.outq → s.inq.sameReadSide s'.inq →
    s.outq.rgray = s'.outq.rgray → s.inq.wgray = s'.inq.wgray →
    memRead .inq s.inq.mem (entryAddr s.inq.rbin) = memRead .inq s'.inq.mem (entryAddr s'.inq.rbin) →
    exec i s = .next t → exec i s' = .next t' →
    t.outq.sameWriteSide t'.outq ∧ t.inq.sameReadSide t'.inq ∧ t.ports.task = t'.ports.task) ∧
  (∀ (i : Instr) (s s' t t' : State), isIsrEdge i = true →
    s.arstN = s'.arstN → s.rxStdFilter = s'.rxStdFilter →
    s.inq.sameWriteSide s'.inq → s.outq.sameReadSide s'.outq → s.txRun = s'.txRun →
    s.inq.rgray = s'.inq.rgray → s.outq.wgray = s'.outq.wgray →
    memRead .outq s.outq.mem (entryAddr s.outq.rbin) = memRead .outq s'.outq.mem (entryAddr s'.outq.rbin) →
    exec i s = .next t → exec i s' = .next t' →
    t.inq.sameWriteSide t'.inq ∧ t.outq.sameReadSide t'.outq ∧ t.txRun = t'.txRun ∧ t.ports.isr = t'.ports.isr)

/-! ### The ISR edge (spec/43_channels.md) -/

/-- RXDEP (R167) with reset released: it always completes; a filtered frame gives neither indication and is not pushed; else the
frame is pushed (`in_ok`) or, when INQ shows full, dropped (`in_drop`); the write ranks shift; everything the ISR domain does
not own stays. What TXSVC does at the same edge is `EveryIsrEdgeRunsTxsvc`. -/
def Obligations.RxdepDepositsDropsOrFilters : Prop :=
  ∀ (f : Frame) (txDone space err : Bool) (s : State), s.arstN = true →
    ∃ t, exec (.rxdep f txDone space err) s = .next t ∧
      t.ports.isr.inOk =
        ((f.getLsbD 93 || !s.rxStdFilter) && (s.inq.wgray != s.inq.wq2Rgray ^^^ 0b1100000#7)) ∧
      t.ports.isr.inDrop =
        ((f.getLsbD 93 || !s.rxStdFilter) && (s.inq.wgray == s.inq.wq2Rgray ^^^ 0b1100000#7)) ∧
      t.ports.isr.inWfull = s.inq.wfull ∧ t.ports.isr.inWcount = s.inq.wbin - g2b s.inq.wq2Rgray ∧
      t.inq.wq1Rgray = s.inq.rgray ∧ t.inq.wq2Rgray = s.inq.wq1Rgray ∧
      (t.ports.isr.inOk = true →
        t.inq.wbin = s.inq.wbin + 1 ∧ t.inq.wgray = b2g (s.inq.wbin + 1) ∧
        ∀ a : Addr, memRead .inq t.inq.mem a =
          if a = s.inq.wbin.extractLsb' 0 6 then f else memRead .inq s.inq.mem a) ∧
      (t.ports.isr.inOk = false →
        t.inq.wbin = s.inq.wbin ∧ t.inq.wgray = s.inq.wgray ∧ t.inq.mem = s.inq.mem) ∧
      s.isrFrame t

/-- TXSVC (R168) with reset released, at EVERY ISR edge (RXDEP, TXSVC, ERREVT, TICK_I): the edge completes; the loop pops exactly when it
is running or `tx_done`, OUTQ does not show empty and `tx_space_r`; `tx_frame` is the entry at the read pointer; `tx_run` becomes
`tx_valid`; the read ranks shift; without `rx_valid` nothing of INQ changes but its write ranks; everything the ISR domain does not
own stays. -/
def Obligations.EveryIsrEdgeRunsTxsvc : Prop :=
  ∀ (i : Instr) (inp : IsrIn) (s : State), isrInputs i = some inp → s.arstN = true →
    ∃ t, exec i s = .next t ∧
      t.ports.isr.txValid = ((s.txRun || inp.txDone) && (s.outq.rgray != s.outq.rq2Wgray) && inp.txSpaceR) ∧
      t.ports.isr.txFrame = memRead .outq s.outq.mem (s.outq.rbin.extractLsb' 0 6) ∧
      t.txRun = t.ports.isr.txValid ∧
      t.ports.isr.outRempty = (s.outq.rgray == s.outq.rq2Wgray) ∧
      t.ports.isr.outRcount = g2b s.outq.rq2Wgray - s.outq.rbin ∧
      t.outq.rbin = (if t.ports.isr.txValid then s.outq.rbin + 1 else s.outq.rbin) ∧
      t.outq.rgray = (if t.ports.isr.txValid then b2g (s.outq.rbin + 1) else s.outq.rgray) ∧
      t.outq.rq1Wgray = s.outq.wgray ∧ t.outq.rq2Wgray = s.outq.rq1Wgray ∧
      (inp.rxValid = false →
        t.inq = { s.inq with wq1Rgray := s.inq.rgray, wq2Rgray := s.inq.wq1Rgray } ∧
        t.ports.isr.inOk = false ∧ t.ports.isr.inDrop = false) ∧
      s.isrFrame t

/-- TXSVC started by `tx_done` (R168, R169), reset released: it completes and does nothing to INQ but shift its write ranks; `in_ok` and
`in_drop` are 0. With OUTQ not empty and space it hands over the oldest entry and sets `tx_run`. -/
def Obligations.TxsvcStartsTheLoop : Prop :=
  ∀ (space err : Bool) (s : State), s.arstN = true →
    ∃ t, exec (.txsvc space err) s = .next t ∧
      t.inq = { s.inq with wq1Rgray := s.inq.rgray, wq2Rgray := s.inq.wq1Rgray } ∧
      t.ports.isr.inOk = false ∧ t.ports.isr.inDrop = false ∧
      t.ports.isr.txValid = ((s.outq.rgray != s.outq.rq2Wgray) && space) ∧ t.txRun = t.ports.isr.txValid ∧
      t.ports.isr.txFrame = memRead .outq s.outq.mem (s.outq.rbin.extractLsb' 0 6) ∧
      t.outq =
        { s.outq with
          rbin := if t.txRun then s.outq.rbin + 1 else s.outq.rbin
          rgray := if t.txRun then b2g (s.outq.rbin + 1) else s.outq.rgray
          rq1Wgray := s.outq.wgray
          rq2Wgray := s.outq.rq1Wgray } ∧
      s.isrFrame t

/-- ERREVT (R170): it completes in every state, and an `err_evt` at any ISR edge changes nothing: the edge is the one without it. -/
def Obligations.ErrorEventChangesNothing : Prop :=
  ∀ (s : State) (space txDone : Bool) (f : Frame),
    exec (.errevt space) s = exec (.tickI space) s ∧ (∃ t, exec (.errevt space) s = .next t) ∧
    exec (.txsvc space true) s = exec (.txsvc space false) s ∧
    exec (.rxdep f txDone space true) s = exec (.rxdep f txDone space false) s

/-- TICK_I (R172) with reset released and `tx_run` = 0: it completes; it shifts the two synchronisers of the ISR domain, shows the ISR
outputs, leaves `tx_run` 0 and changes nothing else; `tx_space_r` is ignored. -/
def Obligations.TickIOnlyShifts : Prop :=
  ∀ (space : Bool) (s : State), s.arstN = true → s.txRun = false →
    exec (.tickI space) s =
      .next { s with
        inq := { s.inq with wq1Rgray := s.inq.rgray, wq2Rgray := s.inq.wq1Rgray }
        outq := { s.outq with rq1Wgray := s.outq.wgray, rq2Wgray := s.outq.rq1Wgray }
        txRun := false
        ports := { s.ports with isr :=
          { inOk := false
            inDrop := false
            inWfull := s.inq.wfull
            inWcount := s.inq.wcount
            txValid := false
            txFrame := memRead .outq s.outq.mem (s.outq.rbin.extractLsb' 0 6)
            outRempty := s.outq.rempty
            outRcount := s.outq.rcount } } }

/-- R168, R173: without a further `tx_done` the loop ends by itself: from any state with the invariant on OUTQ, any 65 ISR edges with
`tx_done` = 0, whatever their other inputs, complete and leave `tx_run` 0. -/
def Obligations.TransmitLoopEndsByItself : Prop :=
  ∀ (s : State) (edges : List Instr), s.outq.Inv → s.arstN = true → edges.length = 65 →
    (∀ i ∈ edges, ∃ inp, isrInputs i = some inp ∧ inp.txDone = false) →
    ∃ t, execAll edges s = .next t ∧ t.txRun = false

/-! ### Reset (spec/70_reset_and_hazards.md) -/

/-- RESET (R220, R222): with `arst_n` = 0 it completes from every state with every register of every domain 0, the arrays, the parameter
and the pending inputs kept; the flags are 0, 1 and the counts 0; `tx_valid`, `in_drop` and `recv_valid` are 0, as they are then
with any inputs. With `arst_n` = 1 only the level changes. That `send_status` is IDLE is the model's choice (assumption log 8):
RESET records the outputs with all inputs 0, while by R220 the wire follows `send_req` in reset, which is stated of the
edges in reset by `EdgesInResetChangeNothing`. That RESET clears the units on their own too, and that its level is held as State,
are the model's choices (assumption log 9, 10). -/
def Obligations.ResetClearsEveryRegister : Prop :=
  ∀ s : State,
    (∃ t, exec (.reset false) s = .next t ∧
      (t.inq.wbin = 0 ∧ t.inq.wgray = 0 ∧ t.inq.wq1Rgray = 0 ∧ t.inq.wq2Rgray = 0 ∧
        t.inq.rbin = 0 ∧ t.inq.rgray = 0 ∧ t.inq.rq1Wgray = 0 ∧ t.inq.rq2Wgray = 0 ∧ t.inq.mem = s.inq.mem) ∧
      (t.outq.wbin = 0 ∧ t.outq.wgray = 0 ∧ t.outq.wq1Rgray = 0 ∧ t.outq.wq2Rgray = 0 ∧
        t.outq.rbin = 0 ∧ t.outq.rgray = 0 ∧ t.outq.rq1Wgray = 0 ∧ t.outq.rq2Wgray = 0 ∧ t.outq.mem = s.outq.mem) ∧
      t.txRun = false ∧ t.gsync = Gsync.fresh ∧ t.afifo = { Afifo.fresh with mem := s.afifo.mem } ∧
      t.arstN = false ∧ t.rxStdFilter = s.rxStdFilter ∧ t.pending = s.pending ∧
      t.ports.codec = s.ports.codec ∧ t.ports.gray = s.ports.gray ∧
      t.inq.wfull = false ∧ t.inq.rempty = true ∧ t.inq.wcount = 0 ∧ t.inq.rcount = 0 ∧
      t.outq.wfull = false ∧ t.outq.rempty = true ∧ t.outq.wcount = 0 ∧ t.outq.rcount = 0 ∧
      t.ports.isr.txValid = false ∧ t.ports.isr.inDrop = false ∧ t.ports.task.recvValid = false ∧
      t.ports.task.sendStatus = .idle) ∧
    exec (.reset true) s = .next { s with arstN := true }

/-- R220: while `arst_n` is 0 an operation other than RESET changes nothing but outputs, and so does a coincident pair with any choice
of samples; both complete. The outputs follow the inputs: with OUTQ's registers at 0 an edge with SEND shows BYPASSED or
QUEUED by `tx_space_w`, one without it IDLE. That the edges of the units on their own (GC_INC, SYNC_SHIFT, PUSH, POP, their pairs)
change nothing in reset is the model's choice (assumption log 9), and so is that the level of `arst_n` is held as State
(assumption log 10). -/
def Obligations.EdgesInResetChangeNothing : Prop :=
  ∀ s : State, s.arstN = false →
    (∀ i : Instr, (∀ b, i ≠ .reset b) → ∃ t, exec i s = .next t ∧ t = { s with ports := t.ports }) ∧
    (∀ (a b : Instr) (see : See), pairWf a b = true →
      ∃ t, execPair a b see s = .next t ∧ t = { s with ports := t.ports }) ∧
    (s.outq.cleared → ∀ (i : Instr) (inp : TaskIn), taskInputs i = some inp →
      ∃ t, exec i s = .next t ∧
        t.ports.task.sendStatus = if inp.sendReq then (if inp.txSpaceW then .bypassed else .queued) else .idle)

/-- The state after reset (R28): every register 0, `wfull` 0, `rempty` 1, the counts 0, and the outputs with all inputs 0 at both domains'
first edges. -/
def Obligations.StateAfterReset : Prop :=
  State.reset.inq = { Afifo.fresh with mem := State.reset.inq.mem } ∧
  State.reset.outq = { Afifo.fresh with mem := State.reset.outq.mem } ∧ State.reset.txRun = false ∧
  (∀ q, q = State.reset.inq ∨ q = State.reset.outq →
    q.wbin = 0 ∧ q.wgray = 0 ∧ q.wq1Rgray = 0 ∧ q.wq2Rgray = 0 ∧ q.rbin = 0 ∧ q.rgray = 0 ∧ q.rq1Wgray = 0 ∧ q.rq2Wgray = 0 ∧
    q.wfull = false ∧ q.rempty = true ∧ q.wcount = 0 ∧ q.rcount = 0) ∧
  (∃ t, exec (.tickT false 0) State.reset = .next t ∧ t.ports.task.sendStatus.code = 0#2 ∧ t.ports.task.bypValid = false ∧
    t.ports.task.recvValid = false) ∧
  (∃ t, exec (.tickI false) State.reset = .next t ∧ t.ports.isr.inOk = false ∧ t.ports.isr.inDrop = false ∧
    t.ports.isr.txValid = false)

/-! ### Whole machine -/

/-- The invariant (R24 with the canonical arrays) holds after reset.
What the invariant says of the units on their own, of the reset level and of the list form is the model's choice (assumption log 4, 9, 10). -/
def Obligations.ResetHasTheInvariant : Prop := State.reset.Inv

/-- R24: every step from every state with the invariant keeps it: single edges, coincident pairs with every choice of samples, RESET and
CODEC evaluations alike.
What the invariant says of the units on their own, of the reset level and of the list form is the model's choice (assumption log 4, 9, 10). -/
def Obligations.EveryStepKeepsTheInvariant : Prop :=
  ∀ s t : State, s.Inv → step s = .next t → t.Inv

/-- Every step from every state keeps the canonical form of the three arrays, with no other premise.
The canonical form is the model's own (assumption log 4). -/
def Obligations.EveryStepKeepsTheArraysCanonical : Prop :=
  ∀ s t : State, Mem.wf s.inq.mem = true → Mem.wf s.outq.mem = true → Mem.wf s.afifo.mem = true → step s = .next t →
    Mem.wf t.inq.mem = true ∧ Mem.wf t.outq.mem = true ∧ Mem.wf t.afifo.mem = true

/-- R18: `OUTQ.tx_run` is 1 exactly when the last ISR edge popped a frame: from a state with the invariant where it says so, every step
keeps it.
The recorded `tx_valid` is the model's own field (assumption log 8). -/
def Obligations.TxRunRemembersTheLastPop : Prop :=
  ∀ s t : State, s.Inv → s.txRun = s.ports.isr.txValid → step s = .next t → t.txRun = t.ports.isr.txValid

/-- R113, R112: in every step from a state with the invariant that does not end in reset, each gray register that the other domain samples
changes in at most one bit. -/
def Obligations.CrossingRegistersChangeOneBit : Prop :=
  ∀ s t : State, s.Inv → step s = .next t → t.arstN = true →
    (∃ k, ∀ j, j ≠ k → t.inq.wgray.getLsbD j = s.inq.wgray.getLsbD j) ∧
    (∃ k, ∀ j, j ≠ k → t.inq.rgray.getLsbD j = s.inq.rgray.getLsbD j) ∧
    (∃ k, ∀ j, j ≠ k → t.outq.wgray.getLsbD j = s.outq.wgray.getLsbD j) ∧
    (∃ k, ∀ j, j ≠ k → t.outq.rgray.getLsbD j = s.outq.rgray.getLsbD j)

/-- R4, R225: no step changes the parameter `RX_STD_FILTER`, which is fixed when the block is built.
That the parameter is a field of State is the model's choice (assumption log 2). -/
def Obligations.NoStepChangesTheParameter : Prop :=
  ∀ s t : State, step s = .next t → t.rxStdFilter = s.rxStdFilter

/-- R47, R140 for the block, at the edges of one domain: in every state with the invariant and reset released, a TASK edge removes the
oldest frame of INQ exactly when it is received, and it is the frame on `recv_frame`, and appends to OUTQ exactly the frame that is
QUEUED; an ISR edge removes the oldest frame of OUTQ exactly when `tx_valid`, and it is the frame on `tx_frame`, and appends
to INQ exactly the frame with `in_ok`. -/
def Obligations.QueuesAreFirstInFirstOut : Prop :=
  ∀ s : State, s.Inv → s.arstN = true →
    (∀ (i : Instr) (inp : TaskIn), taskInputs i = some inp → ∃ t, exec i s = .next t ∧
      t.inq.contents .inq =
        (s.inq.contents .inq).drop (if inp.recvReq && t.ports.task.recvValid then 1 else 0) ∧
      (t.ports.task.recvValid = true → (s.inq.contents .inq).head? = some t.ports.task.recvFrame) ∧
      t.outq.contents .outq =
        s.outq.contents .outq ++ (if t.ports.task.sendStatus = .queued then [inp.sendFrame] else [])) ∧
    (∀ (i : Instr) (inp : IsrIn), isrInputs i = some inp → ∃ t, exec i s = .next t ∧
      t.outq.contents .outq = (s.outq.contents .outq).drop (if t.ports.isr.txValid then 1 else 0) ∧
      (t.ports.isr.txValid = true → (s.outq.contents .outq).head? = some t.ports.isr.txFrame) ∧
      t.inq.contents .inq = s.inq.contents .inq ++ (if t.ports.isr.inOk then [inp.rxFrame] else []))

/-- R47, R142 for the block, at a coincident pair with any choice of samples: both queues behave as at the single edges, the pop
and the push of one queue at the same instant included. -/
def Obligations.QueuesAreFirstInFirstOutInPairs : Prop :=
  ∀ (s : State) (a b : Instr) (ti : TaskIn) (ii : IsrIn) (see : See), s.Inv → s.arstN = true →
    taskInputs a = some ti → isrInputs b = some ii →
    ∃ t, execPair a b see s = .next t ∧
      t.inq.contents .inq =
        (s.inq.contents .inq).drop (if ti.recvReq && t.ports.task.recvValid then 1 else 0) ++
          (if t.ports.isr.inOk then [ii.rxFrame] else []) ∧
      (t.ports.task.recvValid = true → (s.inq.contents .inq).head? = some t.ports.task.recvFrame) ∧
      t.outq.contents .outq =
        (s.outq.contents .outq).drop (if t.ports.isr.txValid then 1 else 0) ++
          (if t.ports.task.sendStatus = .queued then [ti.sendFrame] else []) ∧
      (t.ports.isr.txValid = true → (s.outq.contents .outq).head? = some t.ports.isr.txFrame)

/-- R233: from a state with the invariant, a coincident pair that bypasses finds OUTQ really empty and does not transmit from it, so
`byp_valid` and `tx_valid` are never both 1 in one step. -/
def Obligations.BypassAndTransmitNeverCoincide : Prop :=
  ∀ (s t : State) (a b : Instr) (see : See), s.Inv → isTaskEdge a = true → isIsrEdge b = true →
    execPair a b see s = .next t → t.ports.task.bypValid = true →
    s.outq.contents .outq = [] ∧ t.ports.isr.txValid = false

/-- R5, R6, R115, R142: a coincident pair of a TASK and an ISR edge, reset released: each domain's registers, array and outputs are
those its edge leaves alone, except the four first ranks, each of which holds the old or the new value of the pointer it follows, as
`see` says; nothing else changes. -/
def Obligations.PairIsBothEdgesFromTheOldState : Prop :=
  ∀ (s : State) (a b : Instr) (see : See), isTaskEdge a = true → isIsrEdge b = true → s.arstN = true →
    ∃ t ta tb, execPair a b see s = .next t ∧ exec a s = .next ta ∧ exec b s = .next tb ∧
      t.outq =
        { ta.outq with
          wq1Rgray := if see.s1 then tb.outq.rgray else s.outq.rgray
          rbin := tb.outq.rbin
          rgray := tb.outq.rgray
          rq1Wgray := if see.s4 then ta.outq.wgray else s.outq.wgray
          rq2Wgray := tb.outq.rq2Wgray } ∧
      t.inq =
        { tb.inq with
          wq1Rgray := if see.s3 then ta.inq.rgray else s.inq.rgray
          rbin := ta.inq.rbin
          rgray := ta.inq.rgray
          rq1Wgray := if see.s2 then tb.inq.wgray else s.inq.wgray
          rq2Wgray := ta.inq.rq2Wgray } ∧
      t.txRun = tb.txRun ∧ t.ports.task = ta.ports.task ∧ t.ports.isr = tb.ports.isr ∧ s.sameOutside t

/-- R175, outbound: from cleared queues, with no space and no ISR edge, SENDs are QUEUED 64 times and DROPPED from the 65th on; OUTQ
holds the first 64 frames in order. -/
def Obligations.OutboundQueueHoldsSixtyFour : Prop :=
  ∀ (s : State) (fs : List Frame), s.arstN = true → s.outq.cleared →
    ∃ t, execAll (fs.map fun f => .send false f false) s = .next t ∧
      t.outq.contents .outq = fs.take 64 ∧ t.outq.wcount.toNat = min fs.length 64 ∧
      (fs ≠ [] → t.ports.task.sendStatus = if fs.length ≤ 64 then .queued else .dropped)

/-- R175, inbound: from cleared queues with the default `RX_STD_FILTER` and no TASK edge, deposits are accepted 64 times and dropped from the
65th on; INQ holds the first 64 frames in order. -/
def Obligations.InboundQueueHoldsSixtyFour : Prop :=
  ∀ (s : State) (fs : List Frame), s.arstN = true → s.rxStdFilter = false → s.inq.cleared →
    ∃ t, execAll (fs.map fun f => .rxdep f false false false) s = .next t ∧
      t.inq.contents .inq = fs.take 64 ∧ t.inq.wcount.toNat = min fs.length 64 ∧
      (fs ≠ [] → t.ports.isr.inOk = decide (fs.length ≤ 64) ∧ t.ports.isr.inDrop = !decide (fs.length ≤ 64))

/-- R77: SETTLE (two idle edges of each domain with no space) brings every view to the pointer it follows, and changes no pointer, no gray
copy, no array and so no contents. -/
def Obligations.SettleBringsTheViewsUpToDate : Prop :=
  ∀ s : State, s.Inv → s.arstN = true →
    ∃ t, execAll [.tickI false, .tickI false, .tickT false 0, .tickT false 0] s = .next t ∧
      t.inq.wcount = t.inq.occ ∧ t.inq.rcount = t.inq.occ ∧ t.outq.wcount = t.outq.occ ∧ t.outq.rcount = t.outq.occ ∧
      (t.inq.wbin = s.inq.wbin ∧ t.inq.wgray = s.inq.wgray ∧ t.inq.rbin = s.inq.rbin ∧ t.inq.rgray = s.inq.rgray) ∧
      (t.outq.wbin = s.outq.wbin ∧ t.outq.wgray = s.outq.wgray ∧ t.outq.rbin = s.outq.rbin ∧ t.outq.rgray = s.outq.rgray) ∧
      t.inq.mem = s.inq.mem ∧ t.outq.mem = s.outq.mem ∧
      t.inq.contents .inq = s.inq.contents .inq ∧ t.outq.contents .outq = s.outq.contents .outq

/-- R49, for both queues, reset released. A push into an empty queue whose views are up to date is not visible to the read
domain after one of its edges, is visible after the second, and the third can pop it. A pop of a queue whose write view is up to
date is still counted by the write domain after one of its edges and is not after the second; where the queue was full, a push at
the second edge fails and one at the third succeeds and reuses the freed entry. In this order: a deposit in INQ, a SEND into OUTQ, a
RECV from INQ, a TXSVC pop of OUTQ. -/
def Obligations.PushesAndPopsAreVisibleAfterTwoEdges : Prop :=
  ∀ (s : State) (f : Frame), s.arstN = true →
    (s.inq.Inv → s.inq.occ = 0 → s.inq.rq1Wgray = s.inq.wgray → s.inq.rq2Wgray = s.inq.wgray →
      s.inq.wq2Rgray = s.inq.rgray → (f.getLsbD 93 = true ∨ s.rxStdFilter = false) →
      (∃ t, execAll [.rxdep f false false false, .tickT false 0] s = .next t ∧ t.inq.rempty = true) ∧
      (∃ t, execAll [.rxdep f false false false, .tickT false 0, .tickT false 0] s = .next t ∧ t.inq.rempty = false) ∧
      (∃ t, execAll [.rxdep f false false false, .tickT false 0, .tickT false 0, .recv false 0] s = .next t ∧
        t.ports.task.recvValid = true ∧ t.ports.task.recvFrame = f)) ∧
    (s.outq.Inv → s.outq.occ = 0 → s.outq.rq1Wgray = s.outq.wgray → s.outq.rq2Wgray = s.outq.wgray →
      s.outq.wq2Rgray = s.outq.rgray →
      (∃ t, execAll [.send false f false, .tickI false] s = .next t ∧ t.outq.rempty = true) ∧
      (∃ t, execAll [.send false f false, .tickI false, .tickI false] s = .next t ∧ t.outq.rempty = false) ∧
      (∃ t, execAll [.send false f false, .tickI false, .tickI false, .txsvc true false] s = .next t ∧
        t.ports.isr.txValid = true ∧ t.ports.isr.txFrame = f)) ∧
    (s.inq.Inv → s.inq.rempty = false → s.inq.wq1Rgray = s.inq.rgray → s.inq.wq2Rgray = s.inq.rgray →
      (∃ t, execAll [.recv false 0, .tickI false] s = .next t ∧ t.inq.wcount = s.inq.wcount) ∧
      (∃ t, execAll [.recv false 0, .tickI false, .tickI false] s = .next t ∧ t.inq.wcount = s.inq.wcount - 1) ∧
      (s.inq.wfull = true → (f.getLsbD 93 = true ∨ s.rxStdFilter = false) →
        (∃ t, execAll [.recv false 0, .tickI false, .rxdep f false false false] s = .next t ∧ t.ports.isr.inDrop = true) ∧
        (∃ t, execAll [.recv false 0, .tickI false, .tickI false, .rxdep f false false false] s = .next t ∧
          t.ports.isr.inOk = true ∧ memRead .inq t.inq.mem (s.inq.rbin.extractLsb' 0 6) = f))) ∧
    (s.outq.Inv → s.outq.rempty = false → s.outq.wq1Rgray = s.outq.rgray → s.outq.wq2Rgray = s.outq.rgray →
      (∃ t, execAll [.txsvc true false, .tickT false 0] s = .next t ∧ t.outq.wcount = s.outq.wcount) ∧
      (∃ t, execAll [.txsvc true false, .tickT false 0, .tickT false 0] s = .next t ∧
        t.outq.wcount = s.outq.wcount - 1) ∧
      (s.outq.wfull = true →
        (∃ t, execAll [.txsvc true false, .tickT false 0, .send false f false] s = .next t ∧
          t.ports.task.sendStatus = .dropped) ∧
        (∃ t, execAll [.txsvc true false, .tickT false 0, .tickT false 0, .send false f false] s = .next t ∧
          t.ports.task.sendStatus = .queued ∧ memRead .outq t.outq.mem (s.outq.rbin.extractLsb' 0 6) = f)))

/-! ### Encoding and the step -/

/-- Decoding an encoded operation gives it back, for all 22 operations and every operand.
The record's layout and the one constructor for a whole edge are the model's choices (assumption log 5, 6). -/
def Obligations.DecodeEncode : Prop :=
  ∀ i : Instr, decode (encode i) = .ok i

/-- R71: every control word TCTL with a frame on `send_frame` is the TASK edge with `send_req` = TCTL[2], `tx_space_w` = TCTL[1] and
`recv_req` = TCTL[0]: SEND when bit 2 is 1, RECV when bit 2 is 0 and bit 0 is 1, TICK_T when both are 0; and with reset released
the ranks of the TASK domain shift whatever TCTL is.
The record that carries the word, and one operation standing for the whole edge, are the model's choices (assumption log 5, 6). -/
def Obligations.TctlSelectsTheTaskEdge : Prop :=
  ∀ (w : BitVec 3) (f : Frame), ∃ i,
    decodeRecord { word := w.setWidth 104, group := BitVec.ofNat 8 PortGroup.tctl.code, frame := f.setWidth 104 } = .ok i ∧
    taskInputs i = some ⟨w.getLsbD 2, w.getLsbD 1, w.getLsbD 0, f⟩ ∧
    (w &&& 0b100#3 = 0b100#3 → i = .send (w.getLsbD 1) f (w.getLsbD 0)) ∧
    (w &&& 0b101#3 = 0b001#3 → i = .recv (w.getLsbD 1) f) ∧
    (w &&& 0b101#3 = 0b000#3 → i = .tickT (w.getLsbD 1) f) ∧
    (∀ s : State, s.arstN = true → ∃ t, exec i s = .next t ∧
      t.outq.wq1Rgray = s.outq.rgray ∧ t.outq.wq2Rgray = s.outq.wq1Rgray ∧
      t.inq.rq1Wgray = s.inq.wgray ∧ t.inq.rq2Wgray = s.inq.rq1Wgray)

/-- R72: every control word ICTL with a frame on `rx_frame` is the ISR edge with `rx_valid` = ICTL[3], `tx_done` = ICTL[2], `tx_space_r` =
ICTL[1] and `err_evt` = ICTL[0]; the frame reaches it when `rx_valid` is 1; and with reset released the ranks of the ISR domain
shift whatever ICTL is.
The record that carries the word, and one operation standing for the whole edge, are the model's choices (assumption log 5, 6). -/
def Obligations.IctlSelectsTheIsrEdge : Prop :=
  ∀ (w : BitVec 4) (f : Frame), ∃ i inp,
    decodeRecord { word := w.setWidth 104, group := BitVec.ofNat 8 PortGroup.ictl.code, frame := f.setWidth 104 } = .ok i ∧
    isrInputs i = some inp ∧
    inp.rxValid = w.getLsbD 3 ∧ inp.txDone = w.getLsbD 2 ∧ inp.txSpaceR = w.getLsbD 1 ∧ inp.errEvt = w.getLsbD 0 ∧
    (w.getLsbD 3 = true → inp.rxFrame = f) ∧
    (w &&& 0b1000#4 = 0b1000#4 → i = .rxdep f (w.getLsbD 2) (w.getLsbD 1) (w.getLsbD 0)) ∧
    (w &&& 0b1100#4 = 0b0100#4 → i = .txsvc (w.getLsbD 1) (w.getLsbD 0)) ∧
    (w &&& 0b1101#4 = 0b0001#4 → i = .errevt (w.getLsbD 1)) ∧
    (w &&& 0b1101#4 = 0b0000#4 → i = .tickI (w.getLsbD 1)) ∧
    (∀ s : State, s.arstN = true → ∃ t, exec i s = .next t ∧
      t.inq.wq1Rgray = s.inq.rgray ∧ t.inq.wq2Rgray = s.inq.wq1Rgray ∧
      t.outq.rq1Wgray = s.outq.wgray ∧ t.outq.rq2Wgray = s.outq.rq1Wgray)

/-- A few records written out from the encodings of spec/30_encoding.md decode to the operations they stand for.
The record around the word is the model's choice (assumption log 6). -/
def Obligations.WrittenOutWordsDecode : Prop :=
  decode ([0xD7, 0x05, 0xBC, 0x0A] ++ List.replicate 9 0 ++ [9] ++ List.replicate 13 0) = .ok (.encApp 0xABC 0x5D 0x7) ∧
  decode ([0x23, 0x01] ++ List.replicate 11 0 ++ [11] ++ List.replicate 13 0) = .ok (.encAdm 0x123) ∧
  decode ([0x06] ++ List.replicate 12 0 ++ [1] ++ [5] ++ List.replicate 12 0) = .ok (.send true 5 false) ∧
  decode ([0x06] ++ List.replicate 12 0 ++ [0] ++ List.replicate 13 0) = .ok (.txsvc true false) ∧
  decode (List.replicate 13 0 ++ [2] ++ List.replicate 13 0) = .ok (.reset false)

/-- R76, R41: the frame word of a well-formed `APP(...)` or `ADM(...)` has `len` = the number of bytes given, byte k of the sequence at
`data[8k+7:8k]`, 0 above them, and the `ext` bit of its kind. -/
def Obligations.ScriptFrameCarriesItsBytes : Prop :=
  ∀ (sf : ScriptFrame) (data : List Byte), sf.wf = true →
    ((∃ mt mod inst, sf = .app mt mod inst data) ∨ (∃ cmd rtr, sf = .adm cmd rtr data)) →
    (frameLen (scriptFrameWord sf)).toNat = data.length ∧
    (∀ k, k < 8 → frameByte (scriptFrameWord sf) k = data.getD k 0) ∧
    (frameExt (scriptFrameWord sf) = true ↔ ∃ mt mod inst, sf = .app mt mod inst data)

/-- A step runs the decoded input: one record is exec of the operation it decodes to, with the line used up; two records are the
coincident pair; a record that does not decode is refused by the decoder's reason; with no input nothing changes.
The list of pending records is the model's choice (assumption log 6, 7). -/
def Obligations.StepRunsTheDecodedInput : Prop :=
  (∀ (s : State) (bytes : List Byte) (rest : List InputLine) (i : Instr), s.pending = .one bytes :: rest → decode bytes = .ok i →
    step s = exec i { s with pending := rest }) ∧
  (∀ (s : State) (first second : List Byte) (see : See) (rest : List InputLine) (a b : Instr),
    s.pending = .pair first second see :: rest → decode first = .ok a → decode second = .ok b →
    step s = execPair a b see { s with pending := rest }) ∧
  (∀ (s : State) (bytes : List Byte) (rest : List InputLine) (e : DecodeError), s.pending = .one bytes :: rest →
    decode bytes = .error e → step s = .refused (.undecodable e)) ∧
  (∀ s : State, s.pending = [] → step s = .next s)
end

