-- ==== Sys2Proof/Laws/Bytes.lean ====
section
/-! SUPPORT. The bytes of a record. -/

namespace Sys2Proof

theorem natToBytes_length (n : Nat) : ∀ v, (natToBytes n v).length = n := by
  induction n with
  | zero => intro v; rfl
  | succ n ih => intro v; simp [natToBytes, ih]

/-- Writing `n` bytes and reading them back gives the number modulo `256 ^ n`. -/
theorem bytesToNat_natToBytes (n : Nat) : ∀ v, bytesToNat (natToBytes n v) = v % 256 ^ n := by
  induction n with
  | zero => intro v; simp [natToBytes, bytesToNat, Nat.mod_one]
  | succ n ih =>
    intro v
    rw [natToBytes, bytesToNat, ih, BitVec.toNat_ofNat]
    have h : v % (256 * 256 ^ n) = v % 256 + 256 * (v / 256 % 256 ^ n) := Nat.mod_mul
    have e : 256 ^ (n + 1) = 256 * 256 ^ n := by rw [pow_succ, Nat.mul_comm]
    rw [e, h]

theorem encode_length (i : Instr) : (encode i).length = recordBytes := natToBytes_length _ _

end Sys2Proof
end

