-- ==== Sys2Proof/Laws/Gray.lean ====
section
/-! SUPPORT. The gray code at the pointer width 7, and what the flags of a queue mean in binary counts. -/

namespace Sys2Proof.Machine

set_option maxRecDepth 4000 in
theorem g2b_b2g_ptr (b : Ptr) : g2b (b2g b) = b := by revert b; decide

set_option maxRecDepth 4000 in
theorem b2g_g2b_ptr (g : Ptr) : b2g (g2b g) = g := by revert g; decide

theorem b2g_ptr_inj {a b : Ptr} (h : b2g a = b2g b) : a = b := by
  rw [← g2b_b2g_ptr a, h, g2b_b2g_ptr]

set_option maxRecDepth 4000 in
/-- Inverting the top two gray bits is adding 64 (R139). -/
theorem gray_invert_top (g : Ptr) : g ^^^ 0b1100000#7 = b2g (g2b g + 64#7) := by revert g; decide

@[simp] theorem b2g_zero : b2g 0#7 = 0#7 := rfl

@[simp] theorem g2b_zero : g2b 0#7 = 0#7 := rfl

/-- GC_INC's counter keeps the gray register equal to the gray code of the binary one (R113). -/
theorem grayStep_gray {inc : Bool} {bin gray : Ptr} (h : gray = b2g bin) :
    (grayStep inc bin gray).2 = b2g (grayStep inc bin gray).1 := by
  cases inc <;> simp [grayStep, h]

@[simp] theorem grayStep_true {n : Nat} (bin gray : BitVec n) : grayStep true bin gray = (bin + 1, b2g (bin + 1)) := rfl

@[simp] theorem grayStep_false {n : Nat} (bin gray : BitVec n) : grayStep false bin gray = (bin, gray) := rfl

end Sys2Proof.Machine
end

