-- ==== Sys2Proof/Laws/State.lean ====
section
/-! SUPPORT. One lemma per field per update of State.lean's records, each true by rfl: what an update leaves as it was and what it
writes. Later proofs cite these and unfold no record update. -/

namespace Sys2Proof.Machine

/-! ### Queue updates -/

@[simp] theorem Afifo.shiftWrite_wbin (g : Ptr) (q : Afifo) :
    (q.shiftWrite g).wbin = q.wbin := rfl

@[simp] theorem Afifo.shiftWrite_wgray (g : Ptr) (q : Afifo) :
    (q.shiftWrite g).wgray = q.wgray := rfl

@[simp] theorem Afifo.shiftWrite_wq1Rgray (g : Ptr) (q : Afifo) :
    (q.shiftWrite g).wq1Rgray = g := rfl

@[simp] theorem Afifo.shiftWrite_wq2Rgray (g : Ptr) (q : Afifo) :
    (q.shiftWrite g).wq2Rgray = q.wq1Rgray := rfl

@[simp] theorem Afifo.shiftWrite_rbin (g : Ptr) (q : Afifo) :
    (q.shiftWrite g).rbin = q.rbin := rfl

@[simp] theorem Afifo.shiftWrite_rgray (g : Ptr) (q : Afifo) :
    (q.shiftWrite g).rgray = q.rgray := rfl

@[simp] theorem Afifo.shiftWrite_rq1Wgray (g : Ptr) (q : Afifo) :
    (q.shiftWrite g).rq1Wgray = q.rq1Wgray := rfl

@[simp] theorem Afifo.shiftWrite_rq2Wgray (g : Ptr) (q : Afifo) :
    (q.shiftWrite g).rq2Wgray = q.rq2Wgray := rfl

@[simp] theorem Afifo.shiftWrite_mem (g : Ptr) (q : Afifo) :
    (q.shiftWrite g).mem = q.mem := rfl

@[simp] theorem Afifo.shiftRead_wbin (g : Ptr) (q : Afifo) :
    (q.shiftRead g).wbin = q.wbin := rfl

@[simp] theorem Afifo.shiftRead_wgray (g : Ptr) (q : Afifo) :
    (q.shiftRead g).wgray = q.wgray := rfl

@[simp] theorem Afifo.shiftRead_wq1Rgray (g : Ptr) (q : Afifo) :
    (q.shiftRead g).wq1Rgray = q.wq1Rgray := rfl

@[simp] theorem Afifo.shiftRead_wq2Rgray (g : Ptr) (q : Afifo) :
    (q.shiftRead g).wq2Rgray = q.wq2Rgray := rfl

@[simp] theorem Afifo.shiftRead_rbin (g : Ptr) (q : Afifo) :
    (q.shiftRead g).rbin = q.rbin := rfl

@[simp] theorem Afifo.shiftRead_rgray (g : Ptr) (q : Afifo) :
    (q.shiftRead g).rgray = q.rgray := rfl

@[simp] theorem Afifo.shiftRead_rq1Wgray (g : Ptr) (q : Afifo) :
    (q.shiftRead g).rq1Wgray = g := rfl

@[simp] theorem Afifo.shiftRead_rq2Wgray (g : Ptr) (q : Afifo) :
    (q.shiftRead g).rq2Wgray = q.rq1Wgray := rfl

@[simp] theorem Afifo.shiftRead_mem (g : Ptr) (q : Afifo) :
    (q.shiftRead g).mem = q.mem := rfl

@[simp] theorem Afifo.push_wbin (winc : Bool) (f : Frame) (q : Afifo) :
    (q.push winc f).wbin = (grayStep (q.wrOk winc) q.wbin q.wgray).1 := rfl

@[simp] theorem Afifo.push_wgray (winc : Bool) (f : Frame) (q : Afifo) :
    (q.push winc f).wgray = (grayStep (q.wrOk winc) q.wbin q.wgray).2 := rfl

@[simp] theorem Afifo.push_wq1Rgray (winc : Bool) (f : Frame) (q : Afifo) :
    (q.push winc f).wq1Rgray = q.wq1Rgray := rfl

@[simp] theorem Afifo.push_wq2Rgray (winc : Bool) (f : Frame) (q : Afifo) :
    (q.push winc f).wq2Rgray = q.wq2Rgray := rfl

@[simp] theorem Afifo.push_rbin (winc : Bool) (f : Frame) (q : Afifo) :
    (q.push winc f).rbin = q.rbin := rfl

@[simp] theorem Afifo.push_rgray (winc : Bool) (f : Frame) (q : Afifo) :
    (q.push winc f).rgray = q.rgray := rfl

@[simp] theorem Afifo.push_rq1Wgray (winc : Bool) (f : Frame) (q : Afifo) :
    (q.push winc f).rq1Wgray = q.rq1Wgray := rfl

@[simp] theorem Afifo.push_rq2Wgray (winc : Bool) (f : Frame) (q : Afifo) :
    (q.push winc f).rq2Wgray = q.rq2Wgray := rfl

@[simp] theorem Afifo.push_mem (winc : Bool) (f : Frame) (q : Afifo) :
    (q.push winc f).mem = if q.wrOk winc then memWrite q.mem (entryAddr q.wbin).toNat f else q.mem := rfl

@[simp] theorem Afifo.pop_wbin (rinc : Bool) (q : Afifo) :
    (q.pop rinc).wbin = q.wbin := rfl

@[simp] theorem Afifo.pop_wgray (rinc : Bool) (q : Afifo) :
    (q.pop rinc).wgray = q.wgray := rfl

@[simp] theorem Afifo.pop_wq1Rgray (rinc : Bool) (q : Afifo) :
    (q.pop rinc).wq1Rgray = q.wq1Rgray := rfl

@[simp] theorem Afifo.pop_wq2Rgray (rinc : Bool) (q : Afifo) :
    (q.pop rinc).wq2Rgray = q.wq2Rgray := rfl

@[simp] theorem Afifo.pop_rbin (rinc : Bool) (q : Afifo) :
    (q.pop rinc).rbin = (grayStep (q.rdPop rinc) q.rbin q.rgray).1 := rfl

@[simp] theorem Afifo.pop_rgray (rinc : Bool) (q : Afifo) :
    (q.pop rinc).rgray = (grayStep (q.rdPop rinc) q.rbin q.rgray).2 := rfl

@[simp] theorem Afifo.pop_rq1Wgray (rinc : Bool) (q : Afifo) :
    (q.pop rinc).rq1Wgray = q.rq1Wgray := rfl

@[simp] theorem Afifo.pop_rq2Wgray (rinc : Bool) (q : Afifo) :
    (q.pop rinc).rq2Wgray = q.rq2Wgray := rfl

@[simp] theorem Afifo.pop_mem (rinc : Bool) (q : Afifo) :
    (q.pop rinc).mem = q.mem := rfl

@[simp] theorem Afifo.join_wbin (w r : Afifo) :
    (Afifo.join w r).wbin = w.wbin := rfl

@[simp] theorem Afifo.join_wgray (w r : Afifo) :
    (Afifo.join w r).wgray = w.wgray := rfl

@[simp] theorem Afifo.join_wq1Rgray (w r : Afifo) :
    (Afifo.join w r).wq1Rgray = w.wq1Rgray := rfl

@[simp] theorem Afifo.join_wq2Rgray (w r : Afifo) :
    (Afifo.join w r).wq2Rgray = w.wq2Rgray := rfl

@[simp] theorem Afifo.join_rbin (w r : Afifo) :
    (Afifo.join w r).rbin = r.rbin := rfl

@[simp] theorem Afifo.join_rgray (w r : Afifo) :
    (Afifo.join w r).rgray = r.rgray := rfl

@[simp] theorem Afifo.join_rq1Wgray (w r : Afifo) :
    (Afifo.join w r).rq1Wgray = r.rq1Wgray := rfl

@[simp] theorem Afifo.join_rq2Wgray (w r : Afifo) :
    (Afifo.join w r).rq2Wgray = r.rq2Wgray := rfl

@[simp] theorem Afifo.join_mem (w r : Afifo) :
    (Afifo.join w r).mem = w.mem := rfl

@[simp] theorem Afifo.resetRegs_wbin (q : Afifo) :
    q.resetRegs.wbin = 0 := rfl

@[simp] theorem Afifo.resetRegs_wgray (q : Afifo) :
    q.resetRegs.wgray = 0 := rfl

@[simp] theorem Afifo.resetRegs_wq1Rgray (q : Afifo) :
    q.resetRegs.wq1Rgray = 0 := rfl

@[simp] theorem Afifo.resetRegs_wq2Rgray (q : Afifo) :
    q.resetRegs.wq2Rgray = 0 := rfl

@[simp] theorem Afifo.resetRegs_rbin (q : Afifo) :
    q.resetRegs.rbin = 0 := rfl

@[simp] theorem Afifo.resetRegs_rgray (q : Afifo) :
    q.resetRegs.rgray = 0 := rfl

@[simp] theorem Afifo.resetRegs_rq1Wgray (q : Afifo) :
    q.resetRegs.rq1Wgray = 0 := rfl

@[simp] theorem Afifo.resetRegs_rq2Wgray (q : Afifo) :
    q.resetRegs.rq2Wgray = 0 := rfl

@[simp] theorem Afifo.resetRegs_mem (q : Afifo) :
    q.resetRegs.mem = q.mem := rfl

/-! ### GSYNC updates -/

@[simp] theorem Gsync.step_srcBin (inc : Bool) (g : Gsync) :
    (g.step inc).srcBin = (grayStep inc g.srcBin g.srcGray).1 := rfl

@[simp] theorem Gsync.step_srcGray (inc : Bool) (g : Gsync) :
    (g.step inc).srcGray = (grayStep inc g.srcBin g.srcGray).2 := rfl

@[simp] theorem Gsync.step_dstQ1 (inc : Bool) (g : Gsync) :
    (g.step inc).dstQ1 = g.dstQ1 := rfl

@[simp] theorem Gsync.step_dstQ2 (inc : Bool) (g : Gsync) :
    (g.step inc).dstQ2 = g.dstQ2 := rfl

@[simp] theorem Gsync.shift_srcBin (v : Ptr) (g : Gsync) :
    (g.shift v).srcBin = g.srcBin := rfl

@[simp] theorem Gsync.shift_srcGray (v : Ptr) (g : Gsync) :
    (g.shift v).srcGray = g.srcGray := rfl

@[simp] theorem Gsync.shift_dstQ1 (v : Ptr) (g : Gsync) :
    (g.shift v).dstQ1 = v := rfl

@[simp] theorem Gsync.shift_dstQ2 (v : Ptr) (g : Gsync) :
    (g.shift v).dstQ2 = g.dstQ1 := rfl

/-! ### State updates -/

@[simp] theorem State.withPending_inq (ls : List InputLine) (s : State) :
    (s.withPending ls).inq = s.inq := rfl

@[simp] theorem State.withPending_outq (ls : List InputLine) (s : State) :
    (s.withPending ls).outq = s.outq := rfl

@[simp] theorem State.withPending_txRun (ls : List InputLine) (s : State) :
    (s.withPending ls).txRun = s.txRun := rfl

@[simp] theorem State.withPending_gsync (ls : List InputLine) (s : State) :
    (s.withPending ls).gsync = s.gsync := rfl

@[simp] theorem State.withPending_afifo (ls : List InputLine) (s : State) :
    (s.withPending ls).afifo = s.afifo := rfl

@[simp] theorem State.withPending_arstN (ls : List InputLine) (s : State) :
    (s.withPending ls).arstN = s.arstN := rfl

@[simp] theorem State.withPending_rxStdFilter (ls : List InputLine) (s : State) :
    (s.withPending ls).rxStdFilter = s.rxStdFilter := rfl

@[simp] theorem State.withPending_ports_task (ls : List InputLine) (s : State) :
    (s.withPending ls).ports.task = s.ports.task := rfl

@[simp] theorem State.withPending_ports_isr (ls : List InputLine) (s : State) :
    (s.withPending ls).ports.isr = s.ports.isr := rfl

@[simp] theorem State.withPending_ports_codec (ls : List InputLine) (s : State) :
    (s.withPending ls).ports.codec = s.ports.codec := rfl

@[simp] theorem State.withPending_ports_gray (ls : List InputLine) (s : State) :
    (s.withPending ls).ports.gray = s.ports.gray := rfl

@[simp] theorem State.withPending_ports_write (ls : List InputLine) (s : State) :
    (s.withPending ls).ports.write = s.ports.write := rfl

@[simp] theorem State.withPending_ports_read (ls : List InputLine) (s : State) :
    (s.withPending ls).ports.read = s.ports.read := rfl

@[simp] theorem State.withPending_pending (ls : List InputLine) (s : State) :
    (s.withPending ls).pending = ls := rfl

@[simp] theorem setCodec_inq (p : CodecPorts) (s : State) :
    (setCodec s p).inq = s.inq := rfl

@[simp] theorem setCodec_outq (p : CodecPorts) (s : State) :
    (setCodec s p).outq = s.outq := rfl

@[simp] theorem setCodec_txRun (p : CodecPorts) (s : State) :
    (setCodec s p).txRun = s.txRun := rfl

@[simp] theorem setCodec_gsync (p : CodecPorts) (s : State) :
    (setCodec s p).gsync = s.gsync := rfl

@[simp] theorem setCodec_afifo (p : CodecPorts) (s : State) :
    (setCodec s p).afifo = s.afifo := rfl

@[simp] theorem setCodec_arstN (p : CodecPorts) (s : State) :
    (setCodec s p).arstN = s.arstN := rfl

@[simp] theorem setCodec_rxStdFilter (p : CodecPorts) (s : State) :
    (setCodec s p).rxStdFilter = s.rxStdFilter := rfl

@[simp] theorem setCodec_ports_task (p : CodecPorts) (s : State) :
    (setCodec s p).ports.task = s.ports.task := rfl

@[simp] theorem setCodec_ports_isr (p : CodecPorts) (s : State) :
    (setCodec s p).ports.isr = s.ports.isr := rfl

@[simp] theorem setCodec_ports_codec (p : CodecPorts) (s : State) :
    (setCodec s p).ports.codec = p := rfl

@[simp] theorem setCodec_ports_gray (p : CodecPorts) (s : State) :
    (setCodec s p).ports.gray = s.ports.gray := rfl

@[simp] theorem setCodec_ports_write (p : CodecPorts) (s : State) :
    (setCodec s p).ports.write = s.ports.write := rfl

@[simp] theorem setCodec_ports_read (p : CodecPorts) (s : State) :
    (setCodec s p).ports.read = s.ports.read := rfl

@[simp] theorem setCodec_pending (p : CodecPorts) (s : State) :
    (setCodec s p).pending = s.pending := rfl

@[simp] theorem setGray_inq (p : GrayPorts) (s : State) :
    (setGray s p).inq = s.inq := rfl

@[simp] theorem setGray_outq (p : GrayPorts) (s : State) :
    (setGray s p).outq = s.outq := rfl

@[simp] theorem setGray_txRun (p : GrayPorts) (s : State) :
    (setGray s p).txRun = s.txRun := rfl

@[simp] theorem setGray_gsync (p : GrayPorts) (s : State) :
    (setGray s p).gsync = s.gsync := rfl

@[simp] theorem setGray_afifo (p : GrayPorts) (s : State) :
    (setGray s p).afifo = s.afifo := rfl

@[simp] theorem setGray_arstN (p : GrayPorts) (s : State) :
    (setGray s p).arstN = s.arstN := rfl

@[simp] theorem setGray_rxStdFilter (p : GrayPorts) (s : State) :
    (setGray s p).rxStdFilter = s.rxStdFilter := rfl

@[simp] theorem setGray_ports_task (p : GrayPorts) (s : State) :
    (setGray s p).ports.task = s.ports.task := rfl

@[simp] theorem setGray_ports_isr (p : GrayPorts) (s : State) :
    (setGray s p).ports.isr = s.ports.isr := rfl

@[simp] theorem setGray_ports_codec (p : GrayPorts) (s : State) :
    (setGray s p).ports.codec = s.ports.codec := rfl

@[simp] theorem setGray_ports_gray (p : GrayPorts) (s : State) :
    (setGray s p).ports.gray = p := rfl

@[simp] theorem setGray_ports_write (p : GrayPorts) (s : State) :
    (setGray s p).ports.write = s.ports.write := rfl

@[simp] theorem setGray_ports_read (p : GrayPorts) (s : State) :
    (setGray s p).ports.read = s.ports.read := rfl

@[simp] theorem setGray_pending (p : GrayPorts) (s : State) :
    (setGray s p).pending = s.pending := rfl

@[simp] theorem taskEdge_inq (inp : TaskIn) (a b : Ptr) (s : State) :
    (taskEdge inp a b s).inq = if s.arstN then s.inq.readEdge inp.recvReq b else s.inq := rfl

@[simp] theorem taskEdge_outq (inp : TaskIn) (a b : Ptr) (s : State) :
    (taskEdge inp a b s).outq = if s.arstN then s.outq.writeEdge (sendStatus inp s.outq == .queued) inp.sendFrame a else s.outq := rfl

@[simp] theorem taskEdge_txRun (inp : TaskIn) (a b : Ptr) (s : State) :
    (taskEdge inp a b s).txRun = s.txRun := rfl

@[simp] theorem taskEdge_gsync (inp : TaskIn) (a b : Ptr) (s : State) :
    (taskEdge inp a b s).gsync = s.gsync := rfl

@[simp] theorem taskEdge_afifo (inp : TaskIn) (a b : Ptr) (s : State) :
    (taskEdge inp a b s).afifo = s.afifo := rfl

@[simp] theorem taskEdge_arstN (inp : TaskIn) (a b : Ptr) (s : State) :
    (taskEdge inp a b s).arstN = s.arstN := rfl

@[simp] theorem taskEdge_rxStdFilter (inp : TaskIn) (a b : Ptr) (s : State) :
    (taskEdge inp a b s).rxStdFilter = s.rxStdFilter := rfl

@[simp] theorem taskEdge_ports_task (inp : TaskIn) (a b : Ptr) (s : State) :
    (taskEdge inp a b s).ports.task = taskPorts inp s := rfl

@[simp] theorem taskEdge_ports_isr (inp : TaskIn) (a b : Ptr) (s : State) :
    (taskEdge inp a b s).ports.isr = s.ports.isr := rfl

@[simp] theorem taskEdge_ports_codec (inp : TaskIn) (a b : Ptr) (s : State) :
    (taskEdge inp a b s).ports.codec = s.ports.codec := rfl

@[simp] theorem taskEdge_ports_gray (inp : TaskIn) (a b : Ptr) (s : State) :
    (taskEdge inp a b s).ports.gray = s.ports.gray := rfl

@[simp] theorem taskEdge_ports_write (inp : TaskIn) (a b : Ptr) (s : State) :
    (taskEdge inp a b s).ports.write = s.ports.write := rfl

@[simp] theorem taskEdge_ports_read (inp : TaskIn) (a b : Ptr) (s : State) :
    (taskEdge inp a b s).ports.read = s.ports.read := rfl

@[simp] theorem taskEdge_pending (inp : TaskIn) (a b : Ptr) (s : State) :
    (taskEdge inp a b s).pending = s.pending := rfl

@[simp] theorem isrEdge_inq (inp : IsrIn) (a b : Ptr) (s : State) :
    (isrEdge inp a b s).inq = if s.arstN then s.inq.writeEdge (rxPass inp s) inp.rxFrame a else s.inq := rfl

@[simp] theorem isrEdge_outq (inp : IsrIn) (a b : Ptr) (s : State) :
    (isrEdge inp a b s).outq = if s.arstN then s.outq.readEdge (txPop inp s) b else s.outq := rfl

@[simp] theorem isrEdge_txRun (inp : IsrIn) (a b : Ptr) (s : State) :
    (isrEdge inp a b s).txRun = if s.arstN then txPop inp s else s.txRun := rfl

@[simp] theorem isrEdge_gsync (inp : IsrIn) (a b : Ptr) (s : State) :
    (isrEdge inp a b s).gsync = s.gsync := rfl

@[simp] theorem isrEdge_afifo (inp : IsrIn) (a b : Ptr) (s : State) :
    (isrEdge inp a b s).afifo = s.afifo := rfl

@[simp] theorem isrEdge_arstN (inp : IsrIn) (a b : Ptr) (s : State) :
    (isrEdge inp a b s).arstN = s.arstN := rfl

@[simp] theorem isrEdge_rxStdFilter (inp : IsrIn) (a b : Ptr) (s : State) :
    (isrEdge inp a b s).rxStdFilter = s.rxStdFilter := rfl

@[simp] theorem isrEdge_ports_task (inp : IsrIn) (a b : Ptr) (s : State) :
    (isrEdge inp a b s).ports.task = s.ports.task := rfl

@[simp] theorem isrEdge_ports_isr (inp : IsrIn) (a b : Ptr) (s : State) :
    (isrEdge inp a b s).ports.isr = isrPorts inp s := rfl

@[simp] theorem isrEdge_ports_codec (inp : IsrIn) (a b : Ptr) (s : State) :
    (isrEdge inp a b s).ports.codec = s.ports.codec := rfl

@[simp] theorem isrEdge_ports_gray (inp : IsrIn) (a b : Ptr) (s : State) :
    (isrEdge inp a b s).ports.gray = s.ports.gray := rfl

@[simp] theorem isrEdge_ports_write (inp : IsrIn) (a b : Ptr) (s : State) :
    (isrEdge inp a b s).ports.write = s.ports.write := rfl

@[simp] theorem isrEdge_ports_read (inp : IsrIn) (a b : Ptr) (s : State) :
    (isrEdge inp a b s).ports.read = s.ports.read := rfl

@[simp] theorem isrEdge_pending (inp : IsrIn) (a b : Ptr) (s : State) :
    (isrEdge inp a b s).pending = s.pending := rfl

@[simp] theorem unitWrite_inq (winc : Bool) (f : Frame) (a : Ptr) (s : State) :
    (unitWrite winc f a s).inq = s.inq := rfl

@[simp] theorem unitWrite_outq (winc : Bool) (f : Frame) (a : Ptr) (s : State) :
    (unitWrite winc f a s).outq = s.outq := rfl

@[simp] theorem unitWrite_txRun (winc : Bool) (f : Frame) (a : Ptr) (s : State) :
    (unitWrite winc f a s).txRun = s.txRun := rfl

@[simp] theorem unitWrite_gsync (winc : Bool) (f : Frame) (a : Ptr) (s : State) :
    (unitWrite winc f a s).gsync = s.gsync := rfl

@[simp] theorem unitWrite_afifo (winc : Bool) (f : Frame) (a : Ptr) (s : State) :
    (unitWrite winc f a s).afifo = if s.arstN then s.afifo.writeEdge winc f a else s.afifo := rfl

@[simp] theorem unitWrite_arstN (winc : Bool) (f : Frame) (a : Ptr) (s : State) :
    (unitWrite winc f a s).arstN = s.arstN := rfl

@[simp] theorem unitWrite_rxStdFilter (winc : Bool) (f : Frame) (a : Ptr) (s : State) :
    (unitWrite winc f a s).rxStdFilter = s.rxStdFilter := rfl

@[simp] theorem unitWrite_ports_task (winc : Bool) (f : Frame) (a : Ptr) (s : State) :
    (unitWrite winc f a s).ports.task = s.ports.task := rfl

@[simp] theorem unitWrite_ports_isr (winc : Bool) (f : Frame) (a : Ptr) (s : State) :
    (unitWrite winc f a s).ports.isr = s.ports.isr := rfl

@[simp] theorem unitWrite_ports_codec (winc : Bool) (f : Frame) (a : Ptr) (s : State) :
    (unitWrite winc f a s).ports.codec = s.ports.codec := rfl

@[simp] theorem unitWrite_ports_gray (winc : Bool) (f : Frame) (a : Ptr) (s : State) :
    (unitWrite winc f a s).ports.gray = s.ports.gray := rfl

@[simp] theorem unitWrite_ports_write (winc : Bool) (f : Frame) (a : Ptr) (s : State) :
    (unitWrite winc f a s).ports.write = writePorts winc s.afifo := rfl

@[simp] theorem unitWrite_ports_read (winc : Bool) (f : Frame) (a : Ptr) (s : State) :
    (unitWrite winc f a s).ports.read = s.ports.read := rfl

@[simp] theorem unitWrite_pending (winc : Bool) (f : Frame) (a : Ptr) (s : State) :
    (unitWrite winc f a s).pending = s.pending := rfl

@[simp] theorem unitRead_inq (rinc : Bool) (a : Ptr) (s : State) :
    (unitRead rinc a s).inq = s.inq := rfl

@[simp] theorem unitRead_outq (rinc : Bool) (a : Ptr) (s : State) :
    (unitRead rinc a s).outq = s.outq := rfl

@[simp] theorem unitRead_txRun (rinc : Bool) (a : Ptr) (s : State) :
    (unitRead rinc a s).txRun = s.txRun := rfl

@[simp] theorem unitRead_gsync (rinc : Bool) (a : Ptr) (s : State) :
    (unitRead rinc a s).gsync = s.gsync := rfl

@[simp] theorem unitRead_afifo (rinc : Bool) (a : Ptr) (s : State) :
    (unitRead rinc a s).afifo = if s.arstN then s.afifo.readEdge rinc a else s.afifo := rfl

@[simp] theorem unitRead_arstN (rinc : Bool) (a : Ptr) (s : State) :
    (unitRead rinc a s).arstN = s.arstN := rfl

@[simp] theorem unitRead_rxStdFilter (rinc : Bool) (a : Ptr) (s : State) :
    (unitRead rinc a s).rxStdFilter = s.rxStdFilter := rfl

@[simp] theorem unitRead_ports_task (rinc : Bool) (a : Ptr) (s : State) :
    (unitRead rinc a s).ports.task = s.ports.task := rfl

@[simp] theorem unitRead_ports_isr (rinc : Bool) (a : Ptr) (s : State) :
    (unitRead rinc a s).ports.isr = s.ports.isr := rfl

@[simp] theorem unitRead_ports_codec (rinc : Bool) (a : Ptr) (s : State) :
    (unitRead rinc a s).ports.codec = s.ports.codec := rfl

@[simp] theorem unitRead_ports_gray (rinc : Bool) (a : Ptr) (s : State) :
    (unitRead rinc a s).ports.gray = s.ports.gray := rfl

@[simp] theorem unitRead_ports_write (rinc : Bool) (a : Ptr) (s : State) :
    (unitRead rinc a s).ports.write = s.ports.write := rfl

@[simp] theorem unitRead_ports_read (rinc : Bool) (a : Ptr) (s : State) :
    (unitRead rinc a s).ports.read = readPorts rinc s.afifo := rfl

@[simp] theorem unitRead_pending (rinc : Bool) (a : Ptr) (s : State) :
    (unitRead rinc a s).pending = s.pending := rfl

@[simp] theorem gsyncSource_inq (inc : Bool) (s : State) :
    (gsyncSource inc s).inq = s.inq := rfl

@[simp] theorem gsyncSource_outq (inc : Bool) (s : State) :
    (gsyncSource inc s).outq = s.outq := rfl

@[simp] theorem gsyncSource_txRun (inc : Bool) (s : State) :
    (gsyncSource inc s).txRun = s.txRun := rfl

@[simp] theorem gsyncSource_gsync (inc : Bool) (s : State) :
    (gsyncSource inc s).gsync = if s.arstN then s.gsync.step inc else s.gsync := rfl

@[simp] theorem gsyncSource_afifo (inc : Bool) (s : State) :
    (gsyncSource inc s).afifo = s.afifo := rfl

@[simp] theorem gsyncSource_arstN (inc : Bool) (s : State) :
    (gsyncSource inc s).arstN = s.arstN := rfl

@[simp] theorem gsyncSource_rxStdFilter (inc : Bool) (s : State) :
    (gsyncSource inc s).rxStdFilter = s.rxStdFilter := rfl

@[simp] theorem gsyncSource_ports_task (inc : Bool) (s : State) :
    (gsyncSource inc s).ports.task = s.ports.task := rfl

@[simp] theorem gsyncSource_ports_isr (inc : Bool) (s : State) :
    (gsyncSource inc s).ports.isr = s.ports.isr := rfl

@[simp] theorem gsyncSource_ports_codec (inc : Bool) (s : State) :
    (gsyncSource inc s).ports.codec = s.ports.codec := rfl

@[simp] theorem gsyncSource_ports_gray (inc : Bool) (s : State) :
    (gsyncSource inc s).ports.gray = s.ports.gray := rfl

@[simp] theorem gsyncSource_ports_write (inc : Bool) (s : State) :
    (gsyncSource inc s).ports.write = s.ports.write := rfl

@[simp] theorem gsyncSource_ports_read (inc : Bool) (s : State) :
    (gsyncSource inc s).ports.read = s.ports.read := rfl

@[simp] theorem gsyncSource_pending (inc : Bool) (s : State) :
    (gsyncSource inc s).pending = s.pending := rfl

@[simp] theorem gsyncDest_inq (v : Ptr) (s : State) :
    (gsyncDest v s).inq = s.inq := rfl

@[simp] theorem gsyncDest_outq (v : Ptr) (s : State) :
    (gsyncDest v s).outq = s.outq := rfl

@[simp] theorem gsyncDest_txRun (v : Ptr) (s : State) :
    (gsyncDest v s).txRun = s.txRun := rfl

@[simp] theorem gsyncDest_gsync (v : Ptr) (s : State) :
    (gsyncDest v s).gsync = if s.arstN then s.gsync.shift v else s.gsync := rfl

@[simp] theorem gsyncDest_afifo (v : Ptr) (s : State) :
    (gsyncDest v s).afifo = s.afifo := rfl

@[simp] theorem gsyncDest_arstN (v : Ptr) (s : State) :
    (gsyncDest v s).arstN = s.arstN := rfl

@[simp] theorem gsyncDest_rxStdFilter (v : Ptr) (s : State) :
    (gsyncDest v s).rxStdFilter = s.rxStdFilter := rfl

@[simp] theorem gsyncDest_ports_task (v : Ptr) (s : State) :
    (gsyncDest v s).ports.task = s.ports.task := rfl

@[simp] theorem gsyncDest_ports_isr (v : Ptr) (s : State) :
    (gsyncDest v s).ports.isr = s.ports.isr := rfl

@[simp] theorem gsyncDest_ports_codec (v : Ptr) (s : State) :
    (gsyncDest v s).ports.codec = s.ports.codec := rfl

@[simp] theorem gsyncDest_ports_gray (v : Ptr) (s : State) :
    (gsyncDest v s).ports.gray = s.ports.gray := rfl

@[simp] theorem gsyncDest_ports_write (v : Ptr) (s : State) :
    (gsyncDest v s).ports.write = s.ports.write := rfl

@[simp] theorem gsyncDest_ports_read (v : Ptr) (s : State) :
    (gsyncDest v s).ports.read = s.ports.read := rfl

@[simp] theorem gsyncDest_pending (v : Ptr) (s : State) :
    (gsyncDest v s).pending = s.pending := rfl

@[simp] theorem clearRegs_inq (s : State) :
    (clearRegs s).inq = s.inq.resetRegs := rfl

@[simp] theorem clearRegs_outq (s : State) :
    (clearRegs s).outq = s.outq.resetRegs := rfl

@[simp] theorem clearRegs_txRun (s : State) :
    (clearRegs s).txRun = false := rfl

@[simp] theorem clearRegs_gsync (s : State) :
    (clearRegs s).gsync = Gsync.fresh := rfl

@[simp] theorem clearRegs_afifo (s : State) :
    (clearRegs s).afifo = s.afifo.resetRegs := rfl

@[simp] theorem clearRegs_arstN (s : State) :
    (clearRegs s).arstN = s.arstN := rfl

@[simp] theorem clearRegs_rxStdFilter (s : State) :
    (clearRegs s).rxStdFilter = s.rxStdFilter := rfl

@[simp] theorem clearRegs_ports_task (s : State) :
    (clearRegs s).ports.task = s.ports.task := rfl

@[simp] theorem clearRegs_ports_isr (s : State) :
    (clearRegs s).ports.isr = s.ports.isr := rfl

@[simp] theorem clearRegs_ports_codec (s : State) :
    (clearRegs s).ports.codec = s.ports.codec := rfl

@[simp] theorem clearRegs_ports_gray (s : State) :
    (clearRegs s).ports.gray = s.ports.gray := rfl

@[simp] theorem clearRegs_ports_write (s : State) :
    (clearRegs s).ports.write = s.ports.write := rfl

@[simp] theorem clearRegs_ports_read (s : State) :
    (clearRegs s).ports.read = s.ports.read := rfl

@[simp] theorem clearRegs_pending (s : State) :
    (clearRegs s).pending = s.pending := rfl

end Sys2Proof.Machine
end

