-- ==== Sys2Proof/Laws/Memory.lean ====
section
/-! SUPPORT. The storage arrays: a read after a write, and the canonical form that every memory operation keeps. -/

namespace Sys2Proof.Machine

theorem memLookup_memWrite_same (m : Mem) (k : Nat) (v : Frame) : memLookup (memWrite m k v) k = some v := by
  induction m with
  | nil => simp [memWrite, memLookup]
  | cons p m ih =>
    obtain ⟨a, u⟩ := p
    simp only [memWrite]
    split
    · simp [memLookup]
    · split
      · simp [memLookup]
      · rename_i h
        simp [memLookup, h, ih]

theorem memLookup_memWrite_other (m : Mem) (k j : Nat) (v : Frame) (h : j ≠ k) :
    memLookup (memWrite m k v) j = memLookup m j := by
  induction m with
  | nil => simp [memWrite, memLookup, h.symm]
  | cons p m ih =>
    obtain ⟨a, u⟩ := p
    simp only [memWrite]
    split
    · simp [memLookup, h.symm]
    · split
      · rename_i e
        subst e
        simp [memLookup, h.symm]
      · simp [memLookup, ih]

theorem memRead_memWrite_same (id : ArrayId) (m : Mem) (a : Addr) (v : Frame) :
    memRead id (memWrite m a.toNat v) a = v := by
  simp [memRead, memLookup_memWrite_same]

theorem memRead_memWrite_other (id : ArrayId) (m : Mem) (a b : Addr) (v : Frame) (h : b ≠ a) :
    memRead id (memWrite m a.toNat v) b = memRead id m b := by
  have : b.toNat ≠ a.toNat := fun e => h (BitVec.eq_of_toNat_eq e)
  simp [memRead, memLookup_memWrite_other _ _ _ _ this]

theorem memWfFrom_memWrite (m : Mem) : ∀ (lo k : Nat) (v : Frame), lo ≤ k → k < 64 → memWfFrom lo m = true →
    memWfFrom lo (memWrite m k v) = true := by
  induction m with
  | nil =>
    intro lo k v h1 h2 _
    simp [memWrite, memWfFrom, h1, h2]
  | cons p m ih =>
    obtain ⟨a, u⟩ := p
    intro lo k v h1 h2 h
    simp only [memWfFrom, Bool.and_eq_true, decide_eq_true_eq] at h
    simp only [memWrite]
    split
    · simp [memWfFrom, h1, h2, h]
      omega
    · split
      · rename_i e
        subst e
        simp [memWfFrom, h]
      · simp [memWfFrom, h]
        exact ih _ _ _ (by omega) h2 h.2

/-- MemWrite keeps the canonical form. -/
theorem memWrite_wf (m : Mem) (a : Addr) (v : Frame) (h : Mem.wf m = true) : Mem.wf (memWrite m a.toNat v) = true :=
  memWfFrom_memWrite m 0 a.toNat v (Nat.zero_le _) a.isLt h

/-- A write-clock edge keeps the canonical form. -/
theorem writeEdge_mem_wf (winc : Bool) (f : Frame) (g : Ptr) (q : Afifo) (h : Mem.wf q.mem = true) :
    Mem.wf (q.writeEdge winc f g).mem = true := by
  simp only [Afifo.writeEdge, Afifo.shiftWrite_mem, Afifo.push_mem]
  split
  · exact memWrite_wf _ _ _ h
  · exact h

/-- A read-clock edge writes no entry. -/
theorem readEdge_mem (rinc : Bool) (g : Ptr) (q : Afifo) : (q.readEdge rinc g).mem = q.mem := rfl

/-- RESET writes no entry (R222). -/
theorem resetRegs_mem_wf (q : Afifo) (h : Mem.wf q.mem = true) : Mem.wf q.resetRegs.mem = true := h

/-- The arrays after reset are in the canonical form. -/
theorem reset_mem_wf :
    Mem.wf State.reset.inq.mem = true ∧ Mem.wf State.reset.outq.mem = true ∧ Mem.wf State.reset.afifo.mem = true := by
  decide

end Sys2Proof.Machine
end

