-- ==== Sys2Proof/Laws/Ops.lean ====
section
/-! SUPPORT. One lemma for each shared operation that says once everything it can do. -/

namespace Sys2Proof.Machine

/-! ### The edges of a queue -/

/-- A push that succeeds (R131, R133). -/
theorem writeEdge_of_wrOk {winc : Bool} {f : Frame} {g : Ptr} {q : Afifo} (h : q.wrOk winc = true) :
    q.writeEdge winc f g =
      { q with
        mem := memWrite q.mem (entryAddr q.wbin).toNat f
        wbin := q.wbin + 1
        wgray := b2g (q.wbin + 1)
        wq1Rgray := g
        wq2Rgray := q.wq1Rgray } := by
  simp [Afifo.writeEdge, Afifo.push, Afifo.shiftWrite, h]

/-- A push that fails, or none (R133, R137): only the ranks shift. -/
theorem writeEdge_of_not_wrOk {winc : Bool} {f : Frame} {g : Ptr} {q : Afifo} (h : q.wrOk winc = false) :
    q.writeEdge winc f g = { q with wq1Rgray := g, wq2Rgray := q.wq1Rgray } := by
  simp [Afifo.writeEdge, Afifo.push, Afifo.shiftWrite, h]

/-- A pop that succeeds (R132, R134). -/
theorem readEdge_of_rdPop {rinc : Bool} {g : Ptr} {q : Afifo} (h : q.rdPop rinc = true) :
    q.readEdge rinc g =
      { q with rbin := q.rbin + 1, rgray := b2g (q.rbin + 1), rq1Wgray := g, rq2Wgray := q.rq1Wgray } := by
  simp [Afifo.readEdge, Afifo.pop, Afifo.shiftRead, h]

/-- A pop that fails, or none (R134, R138): only the ranks shift. -/
theorem readEdge_of_not_rdPop {rinc : Bool} {g : Ptr} {q : Afifo} (h : q.rdPop rinc = false) :
    q.readEdge rinc g = { q with rq1Wgray := g, rq2Wgray := q.rq1Wgray } := by
  simp [Afifo.readEdge, Afifo.pop, Afifo.shiftRead, h]

/-- A write edge leaves the read domain's registers. -/
theorem writeEdge_readSide (winc : Bool) (f : Frame) (g : Ptr) (q : Afifo) : q.sameReadSide (q.writeEdge winc f g) :=
  ⟨rfl, rfl, rfl, rfl⟩

/-- A read edge leaves the write domain's registers and the array. -/
theorem readEdge_writeSide (rinc : Bool) (g : Ptr) (q : Afifo) : q.sameWriteSide (q.readEdge rinc g) :=
  ⟨rfl, rfl, rfl, rfl, rfl⟩

/-! ### The edges of the block -/

/-- A TASK operation's meaning is the TASK edge at its inputs (R161). -/
theorem exec_of_taskInputs {i : Instr} {inp : TaskIn} (h : taskInputs i = some inp) (s : State) :
    exec i s = .next (taskStep inp s) := by
  cases i <;> simp only [taskInputs, Option.some.injEq, reduceCtorEq] at h <;> subst h <;> rfl

/-- An ISR operation's meaning is the ISR edge at its inputs (R166). -/
theorem exec_of_isrInputs {i : Instr} {inp : IsrIn} (h : isrInputs i = some inp) (s : State) :
    exec i s = .next (isrStep inp s) := by
  cases i <;> simp only [isrInputs, Option.some.injEq, reduceCtorEq] at h <;> subst h <;> rfl

/-- What a TASK edge alone does. -/
theorem taskStep_eq (inp : TaskIn) (s : State) : taskStep inp s = taskEdge inp s.outq.rgray s.inq.wgray s := rfl

/-- What an ISR edge alone does. -/
theorem isrStep_eq (inp : IsrIn) (s : State) : isrStep inp s = isrEdge inp s.inq.rgray s.outq.wgray s := rfl

/-- A TASK edge leaves everything that is not the TASK domain's (R161). -/
theorem taskEdge_frame (inp : TaskIn) (a b : Ptr) (s : State) : s.taskFrame (taskEdge inp a b s) := by
  cases h : s.arstN <;>
    simp [State.taskFrame, State.sameOutside, Afifo.sameWriteSide, Afifo.sameReadSide, taskEdge, h, Afifo.writeEdge,
      Afifo.readEdge]

/-- An ISR edge leaves everything that is not the ISR domain's (R166). -/
theorem isrEdge_frame (inp : IsrIn) (a b : Ptr) (s : State) : s.isrFrame (isrEdge inp a b s) := by
  cases h : s.arstN <;>
    simp [State.isrFrame, State.sameOutside, Afifo.sameWriteSide, Afifo.sameReadSide, isrEdge, h, Afifo.writeEdge,
      Afifo.readEdge]

/-- A sample returns the old or the new value and nothing else (R115). -/
theorem sampled_cases (b : Bool) (old new : Ptr) : sampled b old new = old ∨ sampled b old new = new := by
  cases b <;> simp [sampled]

/-- What a coincident pair does to the queues, `tx_run` and the outputs (R6, R142). -/
theorem pairStep_fields (t : TaskIn) (i : IsrIn) (see : See) (s : State) :
    ∃ a b c d : Ptr,
      (a = s.outq.rgray ∨ a = (isrStep i s).outq.rgray) ∧ (b = s.inq.wgray ∨ b = (isrStep i s).inq.wgray) ∧
      (c = s.inq.rgray ∨ c = (taskStep t s).inq.rgray) ∧ (d = s.outq.wgray ∨ d = (taskStep t s).outq.wgray) ∧
      pairStep t i see s =
        { s with
          outq := Afifo.join (taskEdge t a b s).outq (isrEdge i c d s).outq
          inq := Afifo.join (isrEdge i c d s).inq (taskEdge t a b s).inq
          txRun := (isrEdge i c d s).txRun
          ports := { s.ports with task := taskPorts t s, isr := isrPorts i s } } :=
  ⟨_, _, _, _, sampled_cases _ _ _, sampled_cases _ _ _, sampled_cases _ _ _, sampled_cases _ _ _, rfl⟩

/-! ### Reset -/

/-- RESET (R220). -/
theorem setReset_false (s : State) :
    setReset false s =
      { s with
        inq := s.inq.resetRegs
        outq := s.outq.resetRegs
        txRun := false
        gsync := Gsync.fresh
        afifo := s.afifo.resetRegs
        arstN := false
        ports := (setReset false s).ports } := rfl

/-- The release of reset changes the level and nothing else. -/
theorem setReset_true (s : State) : setReset true s = { s with arstN := true } := rfl

/-! ### The step -/

/-- What a step does with each kind of input line. -/
theorem step_cons {s : State} {l : InputLine} {rest : List InputLine} (h : s.pending = l :: rest) :
    step s =
      match fetchLine l with
      | .error e => .refused (.undecodable e)
      | .ok (.one i) => exec i (s.withPending rest)
      | .ok (.pair a b see) => execPair a b see (s.withPending rest) := by
  simp only [step, h] <;> rfl

/-- With no input pending a step changes nothing. -/
theorem step_nil {s : State} (h : s.pending = []) : step s = .next s := by
  simp only [step, h]

/-- A pair is one of the three kinds of simultaneous edges, or it is refused. -/
theorem execPair_cases (a b : Instr) (see : See) (s : State) :
    (∃ t i, taskInputs a = some t ∧ isrInputs b = some i ∧ execPair a b see s = .next (pairStep t i see s)) ∨
    (∃ winc f rinc, a = .push winc f ∧ b = .pop rinc ∧ execPair a b see s = .next (unitPair winc f rinc see s)) ∨
    (∃ inc, a = .gcInc inc ∧ b = .syncShift ∧ execPair a b see s = .next (gsyncPair inc see s)) ∨
    (pairWf a b = false ∧ execPair a b see s = .refused .notAPair) := by
  cases a <;> cases b <;> simp [execPair, taskInputs, isrInputs, pairWf, Instr.kind]

/-! ### The value of a name (R7) -/

/-- A name has a value exactly when its row stands in the table, which lists a name once. -/
theorem codeOf_eq_some {ν α : Type} [DecidableEq ν] {n : ν} {v : α} {rows : List (ν × α)}
    (h : (rows.map Prod.fst).Nodup) : codeOf n rows = some v ↔ (n, v) ∈ rows := by
  induction rows with
  | nil => simp [codeOf]
  | cons r rest ih =>
    obtain ⟨hr, hn⟩ := List.nodup_cons.1 h
    by_cases hm : r.1 = n
    · have : (n, v) ∉ rest := fun hv => hr (hm ▸ List.mem_map_of_mem (f := Prod.fst) hv)
      simp [codeOf, hm, this, Prod.ext_iff, eq_comm]
    · simp [codeOf, hm, ih hn, Prod.ext_iff, Ne.symm hm]

end Sys2Proof.Machine
end

