-- ==== Sys2Proof/Laws/PerInstr.lean ====
section
/-! SUPPORT. Statements about every operation as syntax, one lemma per constructor of Instr. EncodeShape: the encoder writes a
whole record, whose port group is one that the decoder knows. -/

namespace Sys2Proof.Laws

/-- The record of an operation has `recordBytes` bytes and stands on a port group. -/
def EncodeShape.Statement (i : Instr) : Prop :=
  (encode i).length = recordBytes ∧ (PortGroup.ofCode (encodeRecord i).group.toNat).isSome = true

theorem EncodeShape.encApp (mt : BitVec 12) (mod : BitVec 8) (inst : BitVec 4) : EncodeShape.Statement (.encApp mt mod inst) :=
  ⟨encode_length _, rfl⟩

theorem EncodeShape.decApp (id : Ident) : EncodeShape.Statement (.decApp id) :=
  ⟨encode_length _, rfl⟩

theorem EncodeShape.encAdm (cmd : AdmCmd) : EncodeShape.Statement (.encAdm cmd) :=
  ⟨encode_length _, rfl⟩

theorem EncodeShape.decAdm (id : Ident) : EncodeShape.Statement (.decAdm id) :=
  ⟨encode_length _, rfl⟩

theorem EncodeShape.decFrame (frame : Frame) : EncodeShape.Statement (.decFrame frame) :=
  ⟨encode_length _, rfl⟩

theorem EncodeShape.mkApp (mt : BitVec 12) (mod : BitVec 8) (inst : BitVec 4) (len : BitVec 4) (data : BitVec 64) : EncodeShape.Statement (.mkApp mt mod inst len data) :=
  ⟨encode_length _, rfl⟩

theorem EncodeShape.mkAdm (cmd : AdmCmd) (rtr : Bool) (len : BitVec 4) (data : BitVec 64) : EncodeShape.Statement (.mkAdm cmd rtr len data) :=
  ⟨encode_length _, rfl⟩

theorem EncodeShape.frameChk (frame : Frame) : EncodeShape.Statement (.frameChk frame) :=
  ⟨encode_length _, rfl⟩

theorem EncodeShape.b2g (b : Ptr) : EncodeShape.Statement (.b2g b) :=
  ⟨encode_length _, rfl⟩

theorem EncodeShape.g2b (g : Ptr) : EncodeShape.Statement (.g2b g) :=
  ⟨encode_length _, rfl⟩

theorem EncodeShape.gcInc (inc : Bool) : EncodeShape.Statement (.gcInc inc) :=
  ⟨encode_length _, rfl⟩

theorem EncodeShape.syncShift : EncodeShape.Statement (.syncShift) :=
  ⟨encode_length _, rfl⟩

theorem EncodeShape.push (winc : Bool) (wdata : Frame) : EncodeShape.Statement (.push winc wdata) :=
  ⟨encode_length _, rfl⟩

theorem EncodeShape.pop (rinc : Bool) : EncodeShape.Statement (.pop rinc) :=
  ⟨encode_length _, rfl⟩

theorem EncodeShape.send (space : Bool) (frame : Frame) (recvReq : Bool) : EncodeShape.Statement (.send space frame recvReq) :=
  ⟨encode_length _, rfl⟩

theorem EncodeShape.recv (space : Bool) (frame : Frame) : EncodeShape.Statement (.recv space frame) :=
  ⟨encode_length _, rfl⟩

theorem EncodeShape.tickT (space : Bool) (frame : Frame) : EncodeShape.Statement (.tickT space frame) :=
  ⟨encode_length _, rfl⟩

theorem EncodeShape.rxdep (frame : Frame) (txDone : Bool) (space : Bool) (err : Bool) : EncodeShape.Statement (.rxdep frame txDone space err) :=
  ⟨encode_length _, rfl⟩

theorem EncodeShape.txsvc (space : Bool) (err : Bool) : EncodeShape.Statement (.txsvc space err) :=
  ⟨encode_length _, rfl⟩

theorem EncodeShape.errevt (space : Bool) : EncodeShape.Statement (.errevt space) :=
  ⟨encode_length _, rfl⟩

theorem EncodeShape.tickI (space : Bool) : EncodeShape.Statement (.tickI space) :=
  ⟨encode_length _, rfl⟩

theorem EncodeShape.reset (arstN : Bool) : EncodeShape.Statement (.reset arstN) :=
  ⟨encode_length _, rfl⟩

end Sys2Proof.Laws
end

