-- ==== Sys2Proof/Tests/Slice0.lean ====
section
/-! SUPPORT. The model's own tests: what the well-formedness checks refuse, a word of every operation written out from the encodings
of spec/30_encoding.md, steps of the vectors of spec/95_test_vectors.md (their names stand in the comments), and for every obligation
with hypotheses a witness that meets them. -/

open Sys2Proof Sys2Proof.Machine

namespace Sys2Proof.Tests

/-! ### Helpers -/

/-- Thirteen bytes: those given, then zeros. -/
def pad (bs : List Byte) : List Byte := bs ++ List.replicate (13 - bs.length) 0

/-- A record: a word, the number of its port group, a frame input. -/
def record (w : List Byte) (g : Byte) (f : List Byte) : List Byte := pad w ++ [g] ++ pad f

/-- Something of the state after one operation, or `none` where it does not answer a next state. -/
def after {α : Type} (i : Instr) (s : State) (g : State → α) : Option α :=
  match exec i s with
  | .next t => some (g t)
  | .fault _ => none
  | .refused _ => none

/-- Something of the state after one step. -/
def afterStep {α : Type} (s : State) (g : State → α) : Option α :=
  match step s with
  | .next t => some (g t)
  | .fault _ => none
  | .refused _ => none

/-- An array with the frame word k + 1 at address k, for every address below n. -/
def filled (n : Nat) : Mem := (List.range n).map fun k => (k, BitVec.ofNat 99 (k + 1))

/-- A queue after n pushes (n at most 64) and no pop, the read domain's view up to date. -/
def pushed (n : Nat) : Afifo :=
  { Afifo.fresh with
    wbin := BitVec.ofNat 7 n, wgray := b2g (BitVec.ofNat 7 n), rq1Wgray := b2g (BitVec.ofNat 7 n),
    rq2Wgray := b2g (BitVec.ofNat 7 n), mem := filled n }

/-- A queue after n pushes of which the read domain has seen none. -/
def unseen (n : Nat) : Afifo := { pushed n with rq1Wgray := 0, rq2Wgray := 0 }

/-- The reset state with every queue after n pushes. -/
def holding (n : Nat) : State := { State.reset with inq := pushed n, outq := pushed n, afifo := pushed n }

/-- The reset state while `arst_n` is 0. -/
def inReset : State := { State.reset with arstN := false }

/-- The reset state with an operation presented. -/
def presenting (i : Instr) : State := { State.reset with pending := [.one (encode i)] }

/-- The reset state while `arst_n` is 0, with its release presented. -/
def releasing : State := { inReset with pending := [.one (encode (.reset true))] }

/-- One frame in each queue and the transmit loop running. -/
def looping : State := { holding 1 with txRun := true }

/-- One frame in each queue, the TASK domain's view of OUTQ's read pointer not the present one. -/
def staleView : State := { holding 1 with outq := { pushed 1 with wq2Rgray := b2g 127 } }

/-- An extended frame word (bit 93). -/
def extFrame : Frame := 0x0AABC05D70000000000000005#99

/-- A standard frame word. -/
def stdFrame : Frame := 0x100000123000000000000ADDE#99

/-- Enumerator values picked for the test: those of program P3, and others at the ends of their range (R7 fixes none). -/
def picked : Enumerators :=
  { mod :=
      { all := 0, any := 2, undefined := 0xFE, reserved := 0xFF, control := 1, sensor := 3, pump := 4, further := [(0, 5)],
        unknown := .reserved }
    inst :=
      { all := 1, any := 0, undefined := 0xE, reserved := 0xF, exclusive := 5, further := [(2, 2)], unknown := .undefined }
    msg := { pingRequest := 0x101, pingResponse := 0x102, further := [(0, 0), (1, 0xFFE)], unknown := .undefined }
    adm := [(0, 0), (1, 0x7FF)]
    commonCore := 0
    components := [(0, 1)] }

/-! ### Well-formedness refuses -/

theorem test_wf_two_task_edges : pairWf (.tickT false 0) (.recv false 0) = false := by decide
theorem test_wf_isr_edge_first : pairWf (.tickI false) (.tickT false 0) = false := by decide
theorem test_wf_push_with_isr_edge : pairWf (.push true 0) (.tickI false) = false := by decide
theorem test_wf_reset_in_a_pair : pairWf (.reset false) (.tickI false) = false := by decide
theorem test_wf_pairs : pairWf (.send true 0 true) (.errevt false) = true ∧ pairWf (.push true 0) (.pop true) = true ∧
    pairWf (.gcInc true) .syncShift = true := by decide
theorem test_wf_script_nine_bytes : ScriptFrame.wf (.app 0 0 0 (List.replicate 9 0)) = false ∧
    ScriptFrame.wf (.adm 0 false (List.replicate 9 0)) = false := by decide
theorem test_wf_script_part : TPart.wf ⟨some (.adm 0 false (List.replicate 9 0)), false, false⟩ = false ∧
    IPart.wf ⟨some (.app 0 0 0 (List.replicate 9 0)), false, false, false⟩ = false := by decide
theorem test_wf_script_line : ScriptLine.wf (.t ⟨some (.adm 0 false (List.replicate 9 0)), false, false⟩) = false ∧
    ScriptLine.wf (.t ⟨some (.adm 0 false (List.replicate 8 0)), false, false⟩) = true := by decide
theorem test_pair_refused : execPair (.reset false) .syncShift See.old inReset = .refused .notAPair := rfl

/-! ### Words written out from the encodings -/

theorem test_decode_encApp : decode (record [0xD7, 0x05, 0xBC, 0x0A] 9 []) = .ok (.encApp 0xABC 0x5D 0x7) := by decide
theorem test_decode_decApp : decode (record [0xD7, 0xF5, 0xBC, 0x1A] 10 []) = .ok (.decApp 0x1ABCF5D7) := by decide
theorem test_decode_encAdm : decode (record [0x23, 0x01] 11 []) = .ok (.encAdm 0x123) := by decide
theorem test_decode_decAdm : decode (record [0x23, 0xF9, 0xFF, 0x1F] 12 []) = .ok (.decAdm 0x1FFFF923) := by decide
theorem test_decode_decFrame :
    decode (record [0x05, 0, 0, 0, 0, 0, 0, 0, 0xD7, 0x05, 0xBC, 0xAA] 13 []) = .ok (.decFrame extFrame) := by decide
theorem test_decode_mkApp :
    decode (record [0x05, 0, 0, 0, 0, 0, 0, 0, 0xD7, 0x05, 0xBC, 0xAA] 14 []) = .ok (.mkApp 0xABC 0x5D 0x7 1 5) := by decide
theorem test_decode_mkAdm :
    decode (record [0xDE, 0xAD, 0, 0, 0, 0, 0, 0, 0x23, 0x01, 0, 0x40, 0x01] 15 []) = .ok (.mkAdm 0x123 true 2 0xADDE) := by decide
theorem test_decode_frameChk :
    decode (record (List.replicate 12 0xFF ++ [0x07]) 16 []) = .ok (.frameChk (BitVec.allOnes 99)) := by decide
theorem test_decode_b2g : decode (record [0x45] 7 []) = .ok (.b2g 0b1000101) := by decide
theorem test_decode_g2b : decode (record [0x45] 8 []) = .ok (.g2b 0b1000101) := by decide
theorem test_decode_gcInc : decode (record [1] 5 []) = .ok (.gcInc true) := by decide
theorem test_decode_syncShift : decode (record [0] 6 []) = .ok .syncShift ∧ decode (record [1] 6 []) = .ok .syncShift := by decide
theorem test_decode_push : decode (record [1] 3 [0x09]) = .ok (.push true 9) := by decide
theorem test_decode_pop : decode (record [1] 4 []) = .ok (.pop true) := by decide
theorem test_decode_send : decode (record [0b110] 1 [0x09]) = .ok (.send true 9 false) ∧
    decode (record [0b101] 1 [0x09]) = .ok (.send false 9 true) := by decide
theorem test_decode_recv : decode (record [0b001] 1 []) = .ok (.recv false 0) := by decide
theorem test_decode_tickT : decode (record [0b010] 1 [0x09]) = .ok (.tickT true 9) := by decide
theorem test_decode_rxdep : decode (record [0b1000] 0 [0x09]) = .ok (.rxdep 9 false false false) ∧
    decode (record [0b1101] 0 [0x09]) = .ok (.rxdep 9 true false true) := by decide
theorem test_decode_txsvc : decode (record [0b0110] 0 []) = .ok (.txsvc true false) ∧
    decode (record [0b0101] 0 []) = .ok (.txsvc false true) := by decide
theorem test_decode_errevt : decode (record [0b0001] 0 []) = .ok (.errevt false) := by decide
theorem test_decode_tickI : decode (record [0b0010] 0 []) = .ok (.tickI true) := by decide
theorem test_decode_reset : decode (record [0] 2 []) = .ok (.reset false) ∧ decode (record [1] 2 []) = .ok (.reset true) := by decide

theorem test_decode_bad_length : decode [1, 2, 3] = .error (.badLength 3) := by decide
theorem test_decode_no_group : decode (record [] 17 []) = .error (.noSuchPortGroup 17) := by decide
theorem test_decode_tctl_bit_3 : decode (record [0b1000] 1 []) = .error .bitsOutsideThePort := by decide
theorem test_decode_fixed_bit_28 : decode (record [0, 0, 0, 0x10] 9 []) = .error .fixedBits := by decide
theorem test_table_words : decodeTableWord 8 0b1000 = some (.rxdep 0 false false false) ∧
    decodeTableWord 32 0x0ABC05D7 = some (.encApp 0xABC 0x5D 7) ∧
    decodeTableWord 32 0x1ABCF5D7 = some (.decApp 0x1ABCF5D7) ∧
    decodeTableWord 104 0x0AABC05D70000000000000005 = some (.mkApp 0xABC 0x5D 7 1 5) := by decide
theorem test_withFetchWord_runs :
    afterStep (State.reset.withFetchWord 32 0x1ABCF5D7) (fun t => (t.ports.codec.decMt, t.ports.codec.decResvNz)) =
      some (0xABC#12, true) := by decide

/-! ### One step of each operation -/

-- V2.2
theorem test_encApp_all_ones : after (.encApp 0xFFF 0xFF 0xF) State.reset (·.ports.codec.encId) = some 0x0FFF0FFF#29 := by decide
-- V2.3
theorem test_encApp_example : after (.encApp 0xABC 0x5D 0x7) State.reset (·.ports.codec.encId) = some 0x0ABC05D7#29 := by decide
-- V2.18
theorem test_decApp_reserved :
    after (.decApp 0x1ABCF5D7) State.reset
      (fun t => (t.ports.codec.decMt, t.ports.codec.decMod, t.ports.codec.decInst, t.ports.codec.decResvNz)) =
      some (0xABC#12, 0x5D#8, 0x7#4, true) := by decide
-- V2.16
theorem test_decApp_bit_27 :
    after (.decApp 0x08000000) State.reset (fun t => (t.ports.codec.decMt, t.ports.codec.decResvNz)) = some (0x800#12, false) := by
  decide
-- V2.22
theorem test_encAdm : after (.encAdm 0x7FF) State.reset (·.ports.codec.admIdOut) = some 0x7FF#29 := by decide
-- V2.25, V2.26
theorem test_decAdm : after (.decAdm 0x1FFFF923) State.reset (·.ports.codec.admCmdOut) = some 0x123#11 := by decide
theorem test_decAdm_bit_11 : after (.decAdm 0x800) State.reset (·.ports.codec.admCmdOut) = some 0#11 := by decide
-- V2.33
theorem test_decFrame_app :
    after (.decFrame 0x0200001230000000000000000#99) State.reset
      (fun t => (t.ports.codec.clsIsApp, t.ports.codec.clsMod, t.ports.codec.clsInst, t.ports.codec.clsCmd)) =
      some (true, 0x12#8, 3#4, 0#11) := by decide
-- V2.32
theorem test_decFrame_adm :
    after (.decFrame 0x00ABC05D70000000000000000#99) State.reset
      (fun t => (t.ports.codec.clsIsApp, t.ports.codec.clsMt, t.ports.codec.clsCmd)) = some (false, 0#12, 0x5D7#11) := by decide
-- V2.52, and assumption log 8: what State.reset shows of the CODEC is what the operations at operands 0 give
theorem test_reset_codec :
    State.reset.ports.codec.mkAppFrame = 0x0200000000000000000000000#99 ∧
    after (.mkApp 0 0 0 0 0) State.reset (·.ports) = some State.reset.ports ∧
    after (.mkAdm 0 false 0 0) State.reset (·.ports.codec) = some State.reset.ports.codec ∧
    after (.frameChk 0) State.reset (·.ports.codec) = some State.reset.ports.codec ∧
    after (.decFrame 0) State.reset (·.ports.codec) = some State.reset.ports.codec ∧
    after (.decApp 0) State.reset (·.ports.codec) = some State.reset.ports.codec :=
  ⟨by decide, rfl, by decide, by decide, by decide, by decide⟩
-- V2.51
theorem test_mkApp :
    after (.mkApp 0xFFF 0xFF 0xF 8 0x0807060504030201) State.reset (·.ports.codec.mkAppFrame) =
      some 0x42FFF0FFF0807060504030201#99 := by decide
-- V2.57
theorem test_mkAdm : after (.mkAdm 0x7FF true 0 0) State.reset (·.ports.codec.mkAdmFrame) = some 0x0400007FF0000000000000000#99 := by
  decide
-- V2.36, V2.37
theorem test_frameChk_len :
    after (.frameChk 0x42FFF0FFF0807060504030201#99) State.reset (·.ports.codec.frameOk) = some true ∧
    after (.frameChk 0x4A00000000000000000000000#99) State.reset (·.ports.codec.frameOk) = some false := by decide
-- V2.40
theorem test_frameChk_std : after (.frameChk 0x0000008000000000000000000#99) State.reset (·.ports.codec.frameOk) = some false := by
  decide
-- V3.1, V3.2
theorem test_b2g : after (.b2g 5) State.reset (·.ports.gray.gray) = some 0b0000111#7 := by decide
theorem test_b2g_64 : after (.b2g 64) State.reset (·.ports.gray.gray) = some 0b1100000#7 := by decide
-- V3.6
theorem test_g2b : after (.g2b 0b1111111) State.reset (·.ports.gray.bin) = some 85#7 := by decide
-- V3.10
theorem test_gcInc_wraps :
    after (.gcInc true) { State.reset with gsync := ⟨127, 0b1000000, 0, 0⟩ } (fun t => (t.gsync.srcBin, t.gsync.srcGray)) =
      some (0#7, 0#7) := by decide
-- V3.11
theorem test_syncShift :
    after .syncShift { State.reset with gsync := ⟨6, 0b0000101, 0b0000111, 0b0000010⟩ } (·.gsync) =
      some ⟨6, 0b0000101, 0b0000101, 0b0000111⟩ := by decide
-- V4.10
theorem test_push :
    after (.push true 7) { State.reset with afifo := ⟨1, 1, 1, 1, 1, 1, 1, 1, [(0, 5)]⟩ } (·.afifo) =
      some ⟨2, 3, 1, 1, 1, 1, 1, 1, [(0, 5), (1, 7)]⟩ := by decide
-- V4.12
theorem test_push_full : after (.push true 7) (holding 64) (fun t => (t.ports.write.wrOk, t.ports.write.wrDrop, t.afifo.wbin)) =
    some (false, true, 64#7) := by decide
-- V4.7
theorem test_pop :
    after (.pop true) { State.reset with afifo := ⟨1, 1, 0, 0, 0, 0, 1, 1, [(0, 5)]⟩ }
      (fun t => (t.ports.read.rdValid, t.ports.read.rdata, t.afifo.rbin, t.afifo.rgray)) = some (true, 5#99, 1#7, 1#7) := by decide
-- V4.6
theorem test_pop_not_yet_visible :
    after (.pop true) { State.reset with afifo := ⟨1, 1, 0, 0, 0, 0, 1, 0, [(0, 5)]⟩ }
      (fun t => (t.ports.read.rdValid, t.afifo.rbin, t.afifo.rq2Wgray)) = some (false, 0#7, 1#7) := by decide
-- V5.1
theorem test_send_bypass :
    after (.send true 7 false) State.reset (fun t => (t.ports.task.sendStatus.code, t.ports.task.bypFrame, t.outq.wbin)) =
      some (1#2, 7#99, 0#7) := by decide
-- V5.6
theorem test_send_drop :
    after (.send true 7 false) (holding 64) (fun t => (t.ports.task.sendStatus.code, t.outq.wbin)) = some (3#2, 64#7) := by decide
-- R165's example
theorem test_recv :
    after (.recv false 0) (holding 2) (fun t => (t.ports.task.recvValid, t.ports.task.recvFrame, t.inq.rbin)) =
      some (true, 1#99, 1#7) := by decide
-- V5.9
theorem test_recv_empty :
    after (.recv false 0) State.reset (fun t => (t.ports.task.recvValid, t.indicates .recvEmpty, t.inq.rbin)) =
      some (false, true, 0#7) := by decide
-- R171's example: the first of the two edges
theorem test_tickT :
    after (.tickT false 0) { State.reset with inq := unseen 1 } (fun t => (t.inq.rq1Wgray, t.inq.rq2Wgray, t.inq.rempty)) =
      some (1#7, 0#7, true) := by decide
-- V5.10
theorem test_rxdep :
    after (.rxdep stdFrame false false false) State.reset (fun t => (t.ports.isr.inOk, t.inq.wbin, t.inq.mem)) =
      some (true, 1#7, [(0, stdFrame)]) := by decide
theorem test_rxdep_filtered :
    after (.rxdep stdFrame false false false) { State.reset with rxStdFilter := true }
      (fun t => (t.ports.isr.inOk, t.ports.isr.inDrop, t.inq.wbin)) = some (false, false, 0#7) := by decide
-- P2, lines 7 and 5
theorem test_txsvc :
    after (.txsvc true false) (holding 2) (fun t => (t.ports.isr.txValid, t.ports.isr.txFrame, t.outq.rbin, t.txRun)) =
      some (true, 1#99, 1#7, true) := by decide
theorem test_txsvc_nothing_visible :
    after (.txsvc true false) { State.reset with outq := unseen 3 } (fun t => (t.ports.isr.txValid, t.outq.rq1Wgray, t.txRun)) =
      some (false, 0b0000010#7, false) := by decide
-- V5.11
theorem test_errevt : after (.errevt false) (holding 2) (fun t => (t.outq, t.inq, t.txRun)) =
    after (.tickI false) (holding 2) (fun t => (t.outq, t.inq, t.txRun)) := by decide
-- P2, lines 8 and 10
theorem test_tickI_loop_goes_on :
    after (.tickI true) { holding 2 with txRun := true } (fun t => (t.ports.isr.txFrame, t.outq.rbin, t.txRun)) =
      some (1#99, 1#7, true) := by decide
theorem test_tickI_space_starts_nothing :
    after (.tickI true) (holding 2) (fun t => (t.ports.isr.txValid, t.outq.rbin)) = some (false, 0#7) := by decide
-- R220, R222
theorem test_reset_clears :
    after (.reset false) { holding 2 with txRun := true } (fun t => (t.inq.wbin, t.outq.rq2Wgray, t.txRun, t.inq.mem)) =
      some (0#7, 0#7, false, filled 2) := by decide
theorem test_reset_releases : after (.reset true) inReset (·.arstN) = some true := by decide
-- V3.13, and section 5's coincident pair with s2 = 1, s3 = 0
theorem test_pair_sees_new :
    (match execPair (.gcInc true) .syncShift ⟨true, false, false, false⟩
        { State.reset with gsync := ⟨5, 0b0000111, 0b0000111, 0b0000111⟩ } with
      | .next t => some t.gsync
      | _ => none) = some ⟨6, 0b0000101, 0b0000101, 0b0000111⟩ := by decide
theorem test_pair_of_queues :
    (match execPair (.recv false 0) (.rxdep extFrame false false false) ⟨false, true, false, false⟩ (holding 1) with
      | .next t => some (t.inq.rq1Wgray, t.inq.wq1Rgray, t.inq.wbin, t.inq.rbin, t.ports.task.recvFrame)
      | _ => none) = some (3#7, 0#7, 2#7, 1#7, 1#99) := by decide

/-! ### Witnesses: for each obligation with hypotheses, values that meet them, one for each clause -/

theorem witness_DecAdmTakesTheLowBits :
    (∃ t u, exec (.encAdm 0x7FF) State.reset = .next t ∧ exec (.decAdm t.ports.codec.admIdOut) t = .next u) ∧
    (∃ t u, exec (.decAdm 0x1FFFFFFF) State.reset = .next t ∧ exec (.encAdm t.ports.codec.admCmdOut) t = .next u) :=
  ⟨⟨_, _, rfl, rfl⟩, ⟨_, _, rfl, rfl⟩⟩

theorem witness_DecFrameTakesOnePath : extFrame.getLsbD 93 = true ∧ stdFrame.getLsbD 93 = false := by decide

theorem witness_DecAppAfterEncApp :
    ∃ t t', exec (.encApp 0xFFF 0xFF 0xF) State.reset = .next t ∧ exec (.encApp 0xFFF 0xFF 0xF) State.reset = .next t' ∧
      t.ports.codec.encId = t'.ports.codec.encId := ⟨_, _, rfl, rfl, rfl⟩

theorem witness_ClassificationIsTotalAndKeepsTheCode :
    picked.legal ∧ (MsgName.pingResponse, 0x102#12) ∈ picked.msg.table.rows ∧
    (∀ n : MsgName, (n, 0xFFF#12) ∉ picked.msg.table.rows) ∧
    valueMt picked .pingRequest = some 0x101 ∧ valueMod picked .any = some 2 ∧ valueInst picked .all = some 1 ∧
    valueMt picked (.other 1) = some 0xFFE ∧ valueMod picked .reserved = some 0xFF ∧ valueInst picked .reserved = some 0xF ∧
    valueAdm picked (.other 1) = some 0x7FF ∧ valueComponent picked .commonCore = some 0 := by
  refine ⟨?_, by decide, ?_, by decide⟩
  · simp only [Enumerators.legal, CodeTable.legal, rowsLegal]
    decide
  · intro n h
    simp [MsgParams.table, picked] at h

theorem witness_B2gIsShiftAndXor : (6 : Nat) < 7 ∧ (0 : Nat) < 1 := by decide

theorem witness_G2bInvertsB2g : (6 : Nat) < 7 ∧ (0 : Nat) < 1 := by decide

theorem witness_GrayCodesDifferInOneBit : (0 : Nat) < 1 ∧ (0 : Nat) < 7 := by decide

theorem witness_GcIncStepsTheCounter :
    (holding 64).arstN = true ∧ (holding 64).gsync.srcGray = b2g (holding 64).gsync.srcBin ∧
      ∃ t, exec (.gcInc true) (holding 64) = .next t := ⟨rfl, by decide, _, rfl⟩

theorem witness_SyncShiftMovesOneRank : State.reset.arstN = true := rfl

theorem witness_CoincidentSampleIsOldOrNew : State.reset.arstN = true := rfl

theorem witness_FlagsMeanSixtyFourAndZero :
    (pushed 64).wgray = b2g (pushed 64).wbin ∧ (pushed 64).rgray = b2g (pushed 64).rbin := by decide

theorem witness_PushStoresAndSteps :
    (holding 63).arstN = true ∧ (holding 63).afifo.wgray ≠ (holding 63).afifo.wq2Rgray ^^^ 0b1100000#7 := by decide

theorem witness_PopDeliversAndSteps :
    (holding 1).arstN = true ∧ (holding 1).afifo.rgray ≠ (holding 1).afifo.rq2Wgray := by decide

theorem witness_EdgesWithoutRequestOnlyShift : (holding 64).arstN = true := rfl

theorem witness_FailedPushChangesNothing :
    (holding 64).arstN = true ∧ (holding 64).afifo.wfull = true ∧
    ((holding 64).outq.wfull = true ∧ ¬ ((holding 64).outq.wcount = 0 ∧ true = true)) ∧
    ((holding 64).inq.wfull = true ∧ (extFrame.getLsbD 93 = true ∨ (holding 64).rxStdFilter = false)) ∧
    (stdFrame.getLsbD 93 = true ∨ (holding 64).rxStdFilter = false) := by decide

theorem witness_FailedPopChangesNothing :
    State.reset.arstN = true ∧ State.reset.afifo.rempty = true ∧ State.reset.inq.rempty = true ∧
      State.reset.outq.rempty = true := by decide

theorem witness_CoincidentPushAndPop : (holding 1).arstN = true := rfl

theorem witness_UnitQueueIsFirstInFirstOut :
    (holding 2).afifo.Inv ∧ (holding 2).arstN = true ∧
      (∃ t, exec (.pop true) (holding 2) = .next t ∧ t.ports.read.rdValid = true) := by
  refine ⟨by decide, rfl, _, rfl, by decide⟩

theorem witness_ViewsErrOnTheSafeSide :
    (pushed 64).Inv ∧ (pushed 63).Inv ∧ (pushed 63).wfull = false ∧ (pushed 1).Inv ∧ (pushed 1).rempty = false ∧
      (unseen 64).Inv := by decide

theorem witness_SendBypassesQueuesOrDrops :
    (holding 63).arstN = true ∧
      after (.send false 5 false) (holding 63) (·.ports.task.sendStatus.code) = some 2#2 ∧
      after (.send false 5 false) (holding 64) (·.ports.task.sendStatus.code) = some 3#2 ∧
      after (.send true 5 false) (holding 0) (·.ports.task.sendStatus.code) = some 1#2 := by decide

theorem witness_RecvTakesTheOldestFrame :
    (holding 1).arstN = true ∧
      ((Instr.recv false 5 = .recv false 5 ∨ Instr.recv false 5 = .send false 5 true) ∧
        (Instr.send false 5 true = .recv false 5 ∨ Instr.send false 5 true = .send false 5 true)) := by decide

theorem witness_TickTOnlyShifts : (holding 1).arstN = true := rfl

/-- The first clause: two states that differ in the ISR domain's `tx_run` and nothing else. The second: two that differ in the TASK
domain's second rank of OUTQ and nothing else. -/
theorem witness_EdgesReadOnlyTheirOwnDomain :
    (∃ t t', isTaskEdge (.recv false 0) = true ∧ (holding 1).arstN = looping.arstN ∧
      (holding 1).outq.sameWriteSide looping.outq ∧ (holding 1).inq.sameReadSide looping.inq ∧
      (holding 1).outq.rgray = looping.outq.rgray ∧ (holding 1).inq.wgray = looping.inq.wgray ∧
      memRead .inq (holding 1).inq.mem (entryAddr (holding 1).inq.rbin) =
        memRead .inq looping.inq.mem (entryAddr looping.inq.rbin) ∧
      exec (.recv false 0) (holding 1) = .next t ∧ exec (.recv false 0) looping = .next t') ∧
    (∃ t t', isIsrEdge (.txsvc true false) = true ∧ (holding 1).arstN = staleView.arstN ∧
      (holding 1).rxStdFilter = staleView.rxStdFilter ∧
      (holding 1).inq.sameWriteSide staleView.inq ∧ (holding 1).outq.sameReadSide staleView.outq ∧
      (holding 1).txRun = staleView.txRun ∧ (holding 1).inq.rgray = staleView.inq.rgray ∧
      (holding 1).outq.wgray = staleView.outq.wgray ∧
      memRead .outq (holding 1).outq.mem (entryAddr (holding 1).outq.rbin) =
        memRead .outq staleView.outq.mem (entryAddr staleView.outq.rbin) ∧
      exec (.txsvc true false) (holding 1) = .next t ∧ exec (.txsvc true false) staleView = .next t') :=
  ⟨⟨_, _, rfl, rfl, ⟨rfl, rfl, rfl, rfl, rfl⟩, ⟨rfl, rfl, rfl, rfl⟩, rfl, rfl, rfl, rfl, rfl⟩,
    ⟨_, _, rfl, rfl, rfl, ⟨rfl, rfl, rfl, rfl, rfl⟩, ⟨rfl, rfl, rfl, rfl⟩, rfl, rfl, rfl, rfl, rfl, rfl⟩⟩

theorem witness_RxdepDepositsDropsOrFilters :
    (holding 63).arstN = true ∧
      after (.rxdep stdFrame true true true) (holding 63) (·.ports.isr.inOk) = some true ∧
      after (.rxdep stdFrame true true true) (holding 64) (·.ports.isr.inOk) = some false := by decide

theorem witness_EveryIsrEdgeRunsTxsvc :
    isrInputs (.tickI true) = some ⟨false, false, true, false, 0⟩ ∧ (holding 1).arstN = true ∧
      isrInputs (.rxdep 5 true true true) = some ⟨true, true, true, true, 5⟩ := by decide

theorem witness_TxsvcStartsTheLoop : (holding 1).arstN = true := rfl

theorem witness_TickIOnlyShifts : (holding 1).arstN = true ∧ (holding 1).txRun = false := by decide

theorem witness_TransmitLoopEndsByItself :
    { holding 64 with txRun := true }.outq.Inv ∧ { holding 64 with txRun := true }.arstN = true ∧
      (Instr.rxdep extFrame false true true :: List.replicate 64 (.tickI true)).length = 65 ∧
      (∀ i ∈ Instr.rxdep extFrame false true true :: List.replicate 64 (.tickI true),
        ∃ inp, isrInputs i = some inp ∧ inp.txDone = false) := by
  refine ⟨by decide, rfl, rfl, ?_⟩
  simp [isrInputs]

theorem witness_EdgesInResetChangeNothing :
    inReset.arstN = false ∧ (∀ b, Instr.send true 5 true ≠ .reset b) ∧
      pairWf (.send true 5 true) (.rxdep 5 true true true) = true ∧ inReset.outq.cleared ∧
      taskInputs (.send false 5 false) = some ⟨true, false, false, 5⟩ :=
  ⟨rfl, by decide, by decide, rfl, rfl⟩

theorem witness_EveryStepKeepsTheInvariant :
    (presenting (.rxdep extFrame false false false)).Inv ∧
      afterStep (presenting (.rxdep extFrame false false false)) (·.inq.wbin) = some 1#7 ∧
      releasing.Inv ∧ afterStep releasing (·.arstN) = some true := ⟨by decide, by decide, by decide, by decide⟩

theorem witness_EveryStepKeepsTheArraysCanonical :
    Mem.wf (presenting (.push true 5)).inq.mem = true ∧ Mem.wf (presenting (.push true 5)).outq.mem = true ∧
      Mem.wf (presenting (.push true 5)).afifo.mem = true ∧ Mem.wf (filled 64) = true ∧
      afterStep (presenting (.push true 5)) (·.afifo.mem) = some [(0, 5)] := by decide

theorem witness_TxRunRemembersTheLastPop :
    (presenting (.tickI true)).Inv ∧ (presenting (.tickI true)).txRun = (presenting (.tickI true)).ports.isr.txValid ∧
      afterStep (presenting (.tickI true)) (·.txRun) = some false := by decide

theorem witness_CrossingRegistersChangeOneBit :
    { presenting (.send false 5 false) with outq := pushed 63 }.Inv ∧
      afterStep { presenting (.send false 5 false) with outq := pushed 63 } (fun t => (t.arstN, t.outq.wgray)) =
        some (true, 0b1100000#7) := by decide

theorem witness_NoStepChangesTheParameter : afterStep (presenting .syncShift) (·.rxStdFilter) = some false := by decide

theorem witness_QueuesAreFirstInFirstOut :
    (holding 2).Inv ∧ (holding 2).arstN = true ∧ taskInputs (.recv false 5) = some ⟨false, false, true, 5⟩ ∧
      after (.recv false 5) (holding 2) (·.ports.task.recvValid) = some true ∧
      isrInputs (.txsvc true false) = some ⟨false, true, true, false, 0⟩ ∧
      after (.txsvc true false) (holding 2) (·.ports.isr.txValid) = some true := by decide

theorem witness_QueuesAreFirstInFirstOutInPairs :
    (holding 2).Inv ∧ (holding 2).arstN = true ∧ taskInputs (.send false 5 true) = some ⟨true, false, true, 5⟩ ∧
      isrInputs (.rxdep 5 true true false) = some ⟨true, true, true, false, 5⟩ ∧
      (match execPair (.send false 5 true) (.rxdep 5 true true false) ⟨true, false, true, false⟩ (holding 2) with
        | .next t => t.ports.task.recvValid && t.ports.isr.txValid
        | _ => false) = true := by decide

theorem witness_BypassAndTransmitNeverCoincide :
    State.reset.Inv ∧ isTaskEdge (.send true 5 false) = true ∧ isIsrEdge (.txsvc true false) = true ∧
      (match execPair (.send true 5 false) (.txsvc true false) See.old State.reset with
        | .next t => t.ports.task.bypValid
        | _ => false) = true := by decide

theorem witness_PairIsBothEdgesFromTheOldState :
    isTaskEdge (.tickT false 0) = true ∧ isIsrEdge (.errevt true) = true ∧ (holding 1).arstN = true := by decide

theorem witness_OutboundQueueHoldsSixtyFour :
    State.reset.arstN = true ∧ State.reset.outq.cleared ∧ List.replicate 64 (5 : Frame) ≠ [] ∧
      List.replicate 65 (5 : Frame) ≠ [] := ⟨rfl, rfl, by decide, by decide⟩

theorem witness_InboundQueueHoldsSixtyFour :
    State.reset.arstN = true ∧ State.reset.rxStdFilter = false ∧ State.reset.inq.cleared ∧
      List.replicate 64 (5 : Frame) ≠ [] ∧ List.replicate 65 (5 : Frame) ≠ [] := ⟨rfl, rfl, rfl, by decide, by decide⟩

theorem witness_SettleBringsTheViewsUpToDate :
    { holding 64 with inq := unseen 64 }.Inv ∧ { holding 64 with inq := unseen 64 }.arstN = true := by decide

theorem witness_PushesAndPopsAreVisibleAfterTwoEdges :
    State.reset.arstN = true ∧ (holding 64).arstN = true ∧
    (State.reset.inq.Inv ∧ State.reset.inq.occ = 0 ∧ State.reset.inq.rq1Wgray = State.reset.inq.wgray ∧
      State.reset.inq.rq2Wgray = State.reset.inq.wgray ∧ State.reset.inq.wq2Rgray = State.reset.inq.rgray ∧
      (stdFrame.getLsbD 93 = true ∨ State.reset.rxStdFilter = false) ∧
      (extFrame.getLsbD 93 = true ∨ { State.reset with rxStdFilter := true }.rxStdFilter = false)) ∧
    (State.reset.outq.Inv ∧ State.reset.outq.occ = 0 ∧ State.reset.outq.rq1Wgray = State.reset.outq.wgray ∧
      State.reset.outq.rq2Wgray = State.reset.outq.wgray ∧ State.reset.outq.wq2Rgray = State.reset.outq.rgray) ∧
    ((holding 64).inq.Inv ∧ (holding 64).inq.rempty = false ∧ (holding 64).inq.wq1Rgray = (holding 64).inq.rgray ∧
      (holding 64).inq.wq2Rgray = (holding 64).inq.rgray ∧ (holding 64).inq.wfull = true) ∧
    ((holding 64).outq.Inv ∧ (holding 64).outq.rempty = false ∧ (holding 64).outq.wq1Rgray = (holding 64).outq.rgray ∧
      (holding 64).outq.wq2Rgray = (holding 64).outq.rgray ∧ (holding 64).outq.wfull = true) := by
  refine ⟨rfl, rfl, ?_, ?_, ?_, ?_⟩ <;> decide

theorem witness_TctlSelectsTheTaskEdge :
    0b111#3 &&& 0b100#3 = 0b100#3 ∧ 0b011#3 &&& 0b101#3 = 0b001#3 ∧ 0b010#3 &&& 0b101#3 = 0b000#3 ∧
      State.reset.arstN = true := by decide

theorem witness_IctlSelectsTheIsrEdge :
    BitVec.getLsbD 0b1111#4 3 = true ∧ 0b1111#4 &&& 0b1000#4 = 0b1000#4 ∧ 0b0111#4 &&& 0b1100#4 = 0b0100#4 ∧
      0b0011#4 &&& 0b1101#4 = 0b0001#4 ∧ 0b0010#4 &&& 0b1101#4 = 0b0000#4 ∧ State.reset.arstN = true := by decide

theorem witness_ScriptFrameCarriesItsBytes :
    ScriptFrame.wf (.app 0x101 2 1 (List.replicate 8 0xAB)) = true ∧
    ((∃ mt mod inst, ScriptFrame.app 0x101 2 1 (List.replicate 8 0xAB) = .app mt mod inst (List.replicate 8 0xAB)) ∨
      (∃ cmd rtr, ScriptFrame.app 0x101 2 1 (List.replicate 8 0xAB) = .adm cmd rtr (List.replicate 8 0xAB))) ∧
    ScriptFrame.wf (.adm 0x123 true []) = true ∧
    ((∃ mt mod inst, ScriptFrame.adm 0x123 true [] = .app mt mod inst []) ∨
      (∃ cmd rtr, ScriptFrame.adm 0x123 true [] = .adm cmd rtr [])) ∧ (7 : Nat) < 8 :=
  ⟨by decide, .inl ⟨_, _, _, rfl⟩, by decide, .inr ⟨_, _, rfl⟩, by decide⟩

theorem witness_StepRunsTheDecodedInput :
    ((presenting .syncShift).pending = .one (encode .syncShift) :: [] ∧ decode (encode .syncShift) = .ok .syncShift) ∧
    ({ State.reset with pending := [.pair (encode (.gcInc true)) (encode .syncShift) See.old] }.pending =
        .pair (encode (.gcInc true)) (encode .syncShift) See.old :: [] ∧
      decode (encode (.gcInc true)) = .ok (.gcInc true) ∧ decode (encode .syncShift) = .ok .syncShift) ∧
    ({ State.reset with pending := [.one []] }.pending = .one [] :: [] ∧ decode [] = .error (.badLength 0)) ∧
    State.reset.pending = [] := by decide

end Sys2Proof.Tests
end

/-! # Proofs of the statements of spec/00_scope.md: one step, the coincident pair, the static parameter -/

namespace Sys2Proof.Machine

/-! ### Reading an input line -/

theorem fetchLine_one_of_decode {bytes : List Byte} {i : Instr} (h : decode bytes = .ok i) :
    fetchLine (.one bytes) = .ok (.one i) := by
  simp only [fetchLine, h]

theorem fetchLine_one_of_decode_error {bytes : List Byte} {e : DecodeError} (h : decode bytes = .error e) :
    fetchLine (.one bytes) = .error e := by
  simp only [fetchLine, h]

theorem fetchLine_pair_of_decode {first second : List Byte} {a b : Instr} (see : See)
    (ha : decode first = .ok a) (hb : decode second = .ok b) :
    fetchLine (.pair first second see) = .ok (.pair a b see) := by
  simp only [fetchLine, ha, hb]

/-! ### The step, by what its input line reads as -/

section
variable {s : State} {l : InputLine} {rest : List InputLine}

theorem step_of_fetchLine_one {i : Instr} (h : s.pending = l :: rest) (hl : fetchLine l = .ok (.one i)) :
    step s = exec i (s.withPending rest) := by
  rw [step_cons h, hl]

theorem step_of_fetchLine_pair {a b : Instr} {see : See} (h : s.pending = l :: rest)
    (hl : fetchLine l = .ok (.pair a b see)) : step s = execPair a b see (s.withPending rest) := by
  rw [step_cons h, hl]

theorem step_of_fetchLine_error {e : DecodeError} (h : s.pending = l :: rest) (hl : fetchLine l = .error e) :
    step s = .refused (.undecodable e) := by
  rw [step_cons h, hl]

end

/-- A step that answers a next state idled, ran one operation, or ran a pair. -/
theorem step_next_cases {s t : State} (h : step s = .next t) :
    (s.pending = [] ∧ t = s) ∨
    (∃ l rest i, s.pending = l :: rest ∧ fetchLine l = .ok (.one i) ∧ exec i (s.withPending rest) = .next t) ∨
    (∃ l rest a b see, s.pending = l :: rest ∧ fetchLine l = .ok (.pair a b see) ∧
      execPair a b see (s.withPending rest) = .next t) := by
  cases hp : s.pending with
  | nil =>
    have hs : t = s := Host.Outcome.next.inj (h.symm.trans (step_nil hp))
    exact .inl ⟨rfl, hs⟩
  | cons l rest =>
    cases hl : fetchLine l with
    | error e =>
      rw [step_of_fetchLine_error hp hl] at h
      cases h
    | ok f =>
      cases f with
      | one i => exact .inr (.inl ⟨l, rest, i, rfl, hl, step_of_fetchLine_one hp hl ▸ h⟩)
      | pair a b see => exact .inr (.inr ⟨l, rest, a, b, see, rfl, hl, step_of_fetchLine_pair hp hl ▸ h⟩)

/-- Settles O60: the four clauses are the equations of `step` at the line that the decoder reads. -/
theorem stepRunsTheDecodedInput : Obligations.StepRunsTheDecodedInput := by
  unfold Obligations.StepRunsTheDecodedInput
  refine ⟨?one, ?pair, ?undecodable, ?idle⟩
  case one =>
    intro s bytes rest i hp hd
    exact step_of_fetchLine_one hp (fetchLine_one_of_decode hd)
  case pair =>
    intro s first second see rest a b hp ha hb
    exact step_of_fetchLine_pair hp (fetchLine_pair_of_decode see ha hb)
  case undecodable =>
    intro s bytes rest e hp hd
    exact step_of_fetchLine_error hp (fetchLine_one_of_decode_error hd)
  case idle =>
    intro s hp
    exact step_nil hp

/-! ### What an operation alone can do -/

/-- Every operation answers a next state, made by one of the shared operations: it sets a CODEC or gray output, or it is an
edge of a unit on its own, an edge of the block, or a change of `arst_n`. -/
theorem exec_cases (i : Instr) (s : State) :
    (i.kind = .combinational ∧
      ((∃ p, exec i s = .next (setCodec s p)) ∨ (∃ p, exec i s = .next (setGray s p)))) ∨
    (∃ inc, i = .gcInc inc ∧ exec i s = .next (gsyncSource inc s)) ∨
    (i = .syncShift ∧ exec i s = .next (gsyncDest s.gsync.srcGray s)) ∨
    (∃ winc f, i = .push winc f ∧ exec i s = .next (unitWrite winc f s.afifo.rgray s)) ∨
    (∃ rinc, i = .pop rinc ∧ exec i s = .next (unitRead rinc s.afifo.wgray s)) ∨
    (∃ inp, taskInputs i = some inp ∧ exec i s = .next (taskStep inp s)) ∨
    (∃ inp, isrInputs i = some inp ∧ exec i s = .next (isrStep inp s)) ∨
    (∃ n, i = .reset n ∧ exec i s = .next (setReset n s)) := by
  cases i
  case encApp | decApp | encAdm | decAdm | decFrame | mkApp | mkAdm | frameChk =>
    exact .inl ⟨rfl, .inl ⟨_, rfl⟩⟩
  case b2g | g2b => exact .inl ⟨rfl, .inr ⟨_, rfl⟩⟩
  case gcInc => exact .inr (.inl ⟨_, rfl, rfl⟩)
  case syncShift => exact .inr (.inr (.inl ⟨rfl, rfl⟩))
  case push => exact .inr (.inr (.inr (.inl ⟨_, _, rfl, rfl⟩)))
  case pop => exact .inr (.inr (.inr (.inr (.inl ⟨_, rfl, rfl⟩))))
  case send | recv | tickT => exact .inr (.inr (.inr (.inr (.inr (.inl ⟨_, rfl, rfl⟩)))))
  case rxdep | txsvc | errevt | tickI => exact .inr (.inr (.inr (.inr (.inr (.inr (.inl ⟨_, rfl, rfl⟩))))))
  case reset => exact .inr (.inr (.inr (.inr (.inr (.inr (.inr ⟨_, rfl, rfl⟩))))))

/-! ### The parameter `RX_STD_FILTER` -/

@[simp] theorem taskStep_rxStdFilter (inp : TaskIn) (s : State) : (taskStep inp s).rxStdFilter = s.rxStdFilter := rfl

@[simp] theorem isrStep_rxStdFilter (inp : IsrIn) (s : State) : (isrStep inp s).rxStdFilter = s.rxStdFilter := rfl

@[simp] theorem pairStep_rxStdFilter (t : TaskIn) (i : IsrIn) (see : See) (s : State) :
    (pairStep t i see s).rxStdFilter = s.rxStdFilter := rfl

@[simp] theorem unitPair_rxStdFilter (winc : Bool) (f : Frame) (rinc : Bool) (see : See) (s : State) :
    (unitPair winc f rinc see s).rxStdFilter = s.rxStdFilter := rfl

@[simp] theorem gsyncPair_rxStdFilter (inc : Bool) (see : See) (s : State) :
    (gsyncPair inc see s).rxStdFilter = s.rxStdFilter := rfl

@[simp] theorem setReset_rxStdFilter (arstN : Bool) (s : State) : (setReset arstN s).rxStdFilter = s.rxStdFilter := by
  cases arstN <;> rfl

theorem exec_rxStdFilter {i : Instr} {s t : State} (h : exec i s = .next t) : t.rxStdFilter = s.rxStdFilter := by
  obtain ⟨-, ⟨p, hi⟩ | ⟨p, hi⟩⟩ | ⟨inc, -, hi⟩ | ⟨-, hi⟩ | ⟨winc, f, -, hi⟩ | ⟨rinc, -, hi⟩ | ⟨inp, -, hi⟩ |
      ⟨inp, -, hi⟩ | ⟨n, -, hi⟩ := exec_cases i s
  all_goals
    obtain rfl := Host.Outcome.next.inj (hi.symm.trans h)
    simp

theorem execPair_rxStdFilter {a b : Instr} {see : See} {s t : State} (h : execPair a b see s = .next t) :
    t.rxStdFilter = s.rxStdFilter := by
  obtain ⟨ti, ii, -, -, hp⟩ | ⟨winc, f, rinc, -, -, hp⟩ | ⟨inc, -, -, hp⟩ | ⟨-, hp⟩ := execPair_cases a b see s
  case inr.inr.inr => cases hp.symm.trans h
  all_goals
    obtain rfl := Host.Outcome.next.inj (hp.symm.trans h)
    simp

/-- Settles O46: a step idles, runs one operation or runs a pair, and none of them writes the parameter. -/
theorem noStepChangesTheParameter : Obligations.NoStepChangesTheParameter := by
  unfold Obligations.NoStepChangesTheParameter
  intro s t h
  obtain ⟨-, rfl⟩ | ⟨l, rest, i, -, -, hi⟩ | ⟨l, rest, a, b, see, -, -, hab⟩ := step_next_cases h
  · rfl
  · simpa using exec_rxStdFilter hi
  · simpa using execPair_rxStdFilter hab

/-! ### The coincident pair of a TASK and an ISR edge (R6) -/

theorem exists_taskInputs_of_isTaskEdge {i : Instr} (h : isTaskEdge i = true) : ∃ inp, taskInputs i = some inp := by
  cases i
  case send | recv | tickT => exact ⟨_, rfl⟩
  all_goals simp [isTaskEdge, Instr.kind] at h

theorem exists_isrInputs_of_isIsrEdge {i : Instr} (h : isIsrEdge i = true) : ∃ inp, isrInputs i = some inp := by
  cases i
  case rxdep | txsvc | errevt | tickI => exact ⟨_, rfl⟩
  all_goals simp [isIsrEdge, Instr.kind] at h

theorem execPair_of_inputs {a b : Instr} {t : TaskIn} {i : IsrIn} (ha : taskInputs a = some t)
    (hb : isrInputs b = some i) (see : See) (s : State) : execPair a b see s = .next (pairStep t i see s) := by
  simp only [execPair, ha, hb]

/-- R115, R142: what a sample returns reaches the first rank of its own edge and nothing else, so two simultaneous edges with the
samples `g` and `g'` give what edges with any samples `u` and `u'` give, but for the two first ranks. -/
theorem join_writeEdge_readEdge (winc rinc : Bool) (f : Frame) (g g' u u' : Ptr) (q : Afifo) :
    Afifo.join (q.writeEdge winc f g) (q.readEdge rinc g') =
      { q.writeEdge winc f u with
        wq1Rgray := g
        rbin := (q.readEdge rinc u').rbin
        rgray := (q.readEdge rinc u').rgray
        rq1Wgray := g'
        rq2Wgray := (q.readEdge rinc u').rq2Wgray } := rfl

section
variable (t : TaskIn) (i : IsrIn) (see : See) {s : State}

theorem pairStep_outq (hs : s.arstN = true) :
    (pairStep t i see s).outq =
      { (taskStep t s).outq with
        wq1Rgray := sampled see.s1 s.outq.rgray (isrStep i s).outq.rgray
        rbin := (isrStep i s).outq.rbin
        rgray := (isrStep i s).outq.rgray
        rq1Wgray := sampled see.s4 s.outq.wgray (taskStep t s).outq.wgray
        rq2Wgray := (isrStep i s).outq.rq2Wgray } := by
  simp only [pairStep, taskStep_eq, isrStep_eq, taskEdge_outq, isrEdge_outq, hs, if_true]
  exact join_writeEdge_readEdge ..

theorem pairStep_inq (hs : s.arstN = true) :
    (pairStep t i see s).inq =
      { (isrStep i s).inq with
        wq1Rgray := sampled see.s3 s.inq.rgray (taskStep t s).inq.rgray
        rbin := (taskStep t s).inq.rbin
        rgray := (taskStep t s).inq.rgray
        rq1Wgray := sampled see.s2 s.inq.wgray (isrStep i s).inq.wgray
        rq2Wgray := (taskStep t s).inq.rq2Wgray } := by
  simp only [pairStep, taskStep_eq, isrStep_eq, taskEdge_inq, isrEdge_inq, hs, if_true]
  exact join_writeEdge_readEdge ..

variable (s)

@[simp] theorem pairStep_txRun : (pairStep t i see s).txRun = (isrStep i s).txRun := rfl

@[simp] theorem pairStep_ports_task : (pairStep t i see s).ports.task = (taskStep t s).ports.task := rfl

@[simp] theorem pairStep_ports_isr : (pairStep t i see s).ports.isr = (isrStep i s).ports.isr := rfl

theorem pairStep_sameOutside : s.sameOutside (pairStep t i see s) := ⟨rfl, rfl, rfl, rfl, rfl, rfl, rfl, rfl, rfl⟩

end

/-- Settles O50, from the two queues of `pairStep` and its frame. -/
theorem pairIsBothEdgesFromTheOldState : Obligations.PairIsBothEdgesFromTheOldState := by
  unfold Obligations.PairIsBothEdgesFromTheOldState
  intro s a b see ha hb hs
  obtain ⟨ti, hti⟩ := exists_taskInputs_of_isTaskEdge ha
  obtain ⟨ii, hii⟩ := exists_isrInputs_of_isIsrEdge hb
  exact ⟨pairStep ti ii see s, taskStep ti s, isrStep ii s,
    execPair_of_inputs hti hii see s, exec_of_taskInputs hti s, exec_of_isrInputs hii s,
    pairStep_outq ti ii see hs, pairStep_inq ti ii see hs,
    pairStep_txRun ti ii see s, pairStep_ports_task ti ii see s, pairStep_ports_isr ti ii see s,
    pairStep_sameOutside ti ii see s⟩

end Sys2Proof.Machine

/-! # Proofs of the statements of spec/10_state.md: the flags, the invariant of the queues, `tx_run`, the state after reset -/

namespace Sys2Proof.Machine

/-! ### The flags and views of a queue (R20 to R23) -/

theorem b2g_ptr_eq_iff {a b : Ptr} : b2g a = b2g b ↔ a = b := ⟨b2g_ptr_inj, congrArg b2g⟩

theorem wfull_iff {q : Afifo} (h : q.wgray = b2g q.wbin) : q.wfull = true ↔ q.wbin - g2b q.wq2Rgray = 64#7 := by
  rw [Afifo.wfull, beq_iff_eq, h, gray_invert_top, b2g_ptr_eq_iff, sub_eq_iff_eq_add, add_comm]

theorem rempty_iff {q : Afifo} (h : q.rgray = b2g q.rbin) : q.rempty = true ↔ g2b q.rq2Wgray - q.rbin = 0#7 := by
  rw [Afifo.rempty, beq_iff_eq, h, ← b2g_g2b_ptr q.rq2Wgray, b2g_ptr_eq_iff, g2b_b2g_ptr]
  exact eq_comm.trans sub_eq_zero.symm

/-- Settles O19. -/
theorem flagsMeanSixtyFourAndZero : Obligations.FlagsMeanSixtyFourAndZero := by
  unfold Obligations.FlagsMeanSixtyFourAndZero
  intro q hw hr
  exact ⟨wfull_iff hw, rempty_iff hr⟩

/-! ### The pointers as counters that never wrap (R24 (c), (d))

R24 compares six pointers modulo 128. Each is the residue of a counter that never wraps, and on the counters the rule is one chain of
`≤` in `Nat`, which every edge keeps by `omega`. -/

/-- The counters behind the six pointers of a queue, under the names of the registers they stand behind. -/
structure Counters where
  wbin : Nat
  wq1 : Nat
  wq2 : Nat
  rbin : Nat
  rq1 : Nat
  rq2 : Nat

/-- R24 (c), (d), R117: the views are earlier values, the second rank never newer than the first, and the write pointer is at most 64
counts ahead of the oldest view of the read pointer. -/
def Counters.ordered (c : Counters) : Prop :=
  c.wq2 ≤ c.wq1 ∧ c.wq1 ≤ c.rbin ∧ c.rbin ≤ c.rq2 ∧ c.rq2 ≤ c.rq1 ∧ c.rq1 ≤ c.wbin ∧ c.wbin ≤ c.wq2 + 64

/-- The gray register of a pointer whose counter is `n`. -/
def grayOf (n : Nat) : Ptr := b2g (BitVec.ofNat 7 n)

@[simp] theorem g2b_grayOf (n : Nat) : g2b (grayOf n) = BitVec.ofNat 7 n := g2b_b2g_ptr _

theorem eq_grayOf {g : Ptr} {n : Nat} (h : BitVec.ofNat 7 n = g2b g) : g = grayOf n := by
  rw [grayOf, h, b2g_g2b_ptr]

/-- The write domain's pointer registers stand at the counters `w`, `w1` and `w2`. -/
def Afifo.writeSideAt (q : Afifo) (w w1 w2 : Nat) : Prop :=
  q.wbin = BitVec.ofNat 7 w ∧ q.wgray = grayOf w ∧ q.wq1Rgray = grayOf w1 ∧ q.wq2Rgray = grayOf w2

/-- The read domain's pointer registers stand at the counters `r`, `r1` and `r2`. -/
def Afifo.readSideAt (q : Afifo) (r r1 r2 : Nat) : Prop :=
  q.rbin = BitVec.ofNat 7 r ∧ q.rgray = grayOf r ∧ q.rq1Wgray = grayOf r1 ∧ q.rq2Wgray = grayOf r2

/-- The entries of the counters from `lo` up to `hi` were written. -/
def Mem.writtenOn (m : Mem) (lo hi : Nat) : Prop := ∀ n, lo ≤ n → n < hi → (memLookup m (n % 64)).isSome = true

/-- The registers and the array of a queue agree with counters in the order of R24. -/
structure Afifo.CountedBy (q : Afifo) (c : Counters) : Prop where
  ordered : c.ordered
  write : q.writeSideAt c.wbin c.wq1 c.wq2
  read : q.readSideAt c.rbin c.rq1 c.rq2
  written : Mem.writtenOn q.mem c.rbin c.wbin
  wf : Mem.wf q.mem = true

/-! ### Arithmetic modulo 128 -/

theorem toNat_ofNat_sub_ofNat {a b : Nat} (h : b ≤ a) (h64 : a ≤ b + 64) :
    (BitVec.ofNat 7 a - BitVec.ofNat 7 b).toNat = a - b := by
  simp only [BitVec.toNat_sub, BitVec.toNat_ofNat]
  omega

theorem ofNat_add_toNat_sub {n : Nat} {a : Ptr} (b : Ptr) (h : BitVec.ofNat 7 n = a) :
    BitVec.ofNat 7 (n + (b - a).toNat) = b := by
  rw [BitVec.ofNat_add, h, BitVec.ofNat_toNat, BitVec.setWidth_eq, add_sub_cancel]

/-- Going from `a` up to `b` and on to `c` is going from `a` to `c`, when `b` is met on the way. -/
theorem toNat_sub_add_toNat_sub {a b c : Ptr} (h : (b - a).toNat ≤ (c - a).toNat) :
    (b - a).toNat + (c - b).toNat = (c - a).toNat := by
  simp only [BitVec.toNat_sub] at *
  omega

theorem ofNat_ptr_succ (n : Nat) : BitVec.ofNat 7 (n + 1) = BitVec.ofNat 7 n + 1 := BitVec.ofNat_add n 1

theorem entryAddr_ofNat (n : Nat) : (entryAddr (BitVec.ofNat 7 n)).toNat = n % 64 := by
  simp only [entryAddr, BitVec.extractLsb'_toNat, BitVec.toNat_ofNat, Nat.shiftRight_zero]
  omega

theorem heldWritten_iff {q : Afifo} {r w : Nat} (hr : q.rbin = BitVec.ofNat 7 r) (hw : q.wbin = BitVec.ofNat 7 w)
    (hle : r ≤ w) (h64 : w ≤ r + 64) : q.heldWritten ↔ Mem.writtenOn q.mem r w := by
  have hocc : q.occ.toNat = w - r := by rw [Afifo.occ, hr, hw, toNat_ofNat_sub_ofNat hle h64]
  have haddr (k : Nat) : (entryAddr (q.rbin + BitVec.ofNat 7 k)).toNat = (r + k) % 64 := by
    rw [hr, ← BitVec.ofNat_add, entryAddr_ofNat]
  simp only [Afifo.heldWritten, hocc, haddr]
  constructor
  · intro h n hn hnw
    simpa [Nat.add_sub_cancel' hn] using h (n - r) (by omega)
  · intro h k hk
    exact h (r + k) (by omega) (by omega)

/-! ### The invariant, counted without wrap -/

/-- The counters of a queue, counted from the write domain's second rank (as the views of `Afifo.Inv` are). -/
def Afifo.counters (q : Afifo) : Counters :=
  let w2 := (g2b q.wq2Rgray).toNat
  let r := w2 + (q.rbin - g2b q.wq2Rgray).toNat
  { wbin := r + (q.wbin - q.rbin).toNat
    wq1 := w2 + (g2b q.wq1Rgray - g2b q.wq2Rgray).toNat
    wq2 := w2
    rbin := r
    rq1 := r + (g2b q.rq1Wgray - q.rbin).toNat
    rq2 := r + (g2b q.rq2Wgray - q.rbin).toNat }

theorem Afifo.Inv.countedBy {q : Afifo} (h : q.Inv) : q.CountedBy q.counters := by
  obtain ⟨⟨hwg, hrg⟩, ⟨hw21, hw1r, hw64⟩, ⟨hr21, hr1w⟩, hheld, hwf⟩ := h
  have hsum := toNat_sub_add_toNat_sub hw1r
  have hw2 : BitVec.ofNat 7 q.counters.wq2 = g2b q.wq2Rgray := by simp [Afifo.counters]
  have hr : BitVec.ofNat 7 q.counters.rbin = q.rbin := ofNat_add_toNat_sub _ hw2
  have hw : BitVec.ofNat 7 q.counters.wbin = q.wbin := ofNat_add_toNat_sub _ hr
  have hord : q.counters.ordered := by
    simp only [Counters.ordered, Afifo.counters]
    omega
  refine ⟨hord, ⟨hw.symm, ?wgray, ?wq1, ?wq2⟩, ⟨hr.symm, ?rgray, ?rq1, ?rq2⟩, ?written, hwf⟩
  case wgray => rw [hwg, grayOf, hw]
  case rgray => rw [hrg, grayOf, hr]
  case wq1 => exact eq_grayOf (ofNat_add_toNat_sub _ hw2)
  case wq2 => exact eq_grayOf hw2
  case rq1 => exact eq_grayOf (ofNat_add_toNat_sub _ hr)
  case rq2 => exact eq_grayOf (ofNat_add_toNat_sub _ hr)
  case written =>
    obtain ⟨_, _, _, _, _, _⟩ := hord
    exact (heldWritten_iff hr.symm hw.symm (by omega) (by omega)).1 hheld

theorem Afifo.CountedBy.inv {q : Afifo} {c : Counters} (h : q.CountedBy c) : q.Inv := by
  obtain ⟨⟨h1, h2, h3, h4, h5, h6⟩, ⟨hw, hwg, hw1, hw2⟩, ⟨hr, hrg, hr1, hr2⟩, hwritten, hwf⟩ := h
  refine ⟨⟨?_, ?_⟩, ?_, ?_, ?held, hwf⟩
  case held => exact (heldWritten_iff hr hw (by omega) (by omega)).2 hwritten
  · rw [hwg, hw, grayOf]
  · rw [hrg, hr, grayOf]
  · simp only [Afifo.writeViewOk, hw, hw1, hw2, hr, g2b_grayOf]
    rw [toNat_ofNat_sub_ofNat, toNat_ofNat_sub_ofNat, toNat_ofNat_sub_ofNat] <;> omega
  · simp only [Afifo.readViewOk, hw, hr, hr1, hr2, g2b_grayOf]
    rw [toNat_ofNat_sub_ofNat, toNat_ofNat_sub_ofNat, toNat_ofNat_sub_ofNat] <;> omega

theorem resetRegs_inv {q : Afifo} (h : Mem.wf q.mem = true) : q.resetRegs.Inv :=
  Afifo.CountedBy.inv (c := ⟨0, 0, 0, 0, 0, 0⟩)
    { ordered := by simp [Counters.ordered]
      write := ⟨rfl, rfl, rfl, rfl⟩
      read := ⟨rfl, rfl, rfl, rfl⟩
      written := fun n _ hn => absurd hn n.not_lt_zero
      wf := resetRegs_mem_wf q h }

/-! ### What a step can do to a queue -/

/-- The write domain in one step: no edge, or a write edge whose sample of the read pointer returned `g`. -/
inductive Afifo.WriteMove (q : Afifo) (g : Ptr) : Afifo → Prop
  | stay : WriteMove q g q
  | edge (winc : Bool) (f : Frame) : WriteMove q g (q.writeEdge winc f g)

/-- The read domain in one step: no edge, or a read edge whose sample of the write pointer returned `g`. -/
inductive Afifo.ReadMove (q : Afifo) (g : Ptr) : Afifo → Prop
  | stay : ReadMove q g q
  | edge (rinc : Bool) : ReadMove q g (q.readEdge rinc g)

/-- What the clocks can do to a queue in one step: each domain has an edge or none, both start from the same state, and each sample
returns the other domain's gray register before or after the step (R115, R142). -/
def Afifo.Clocked (q q' : Afifo) : Prop :=
  ∃ g g' w r, q.WriteMove g w ∧ q.ReadMove g' r ∧ (g = q.rgray ∨ g = r.rgray) ∧ (g' = q.wgray ∨ g' = w.wgray) ∧
    q' = Afifo.join w r

theorem Afifo.Clocked.refl (q : Afifo) : q.Clocked q := ⟨_, _, _, _, .stay, .stay, .inl rfl, .inl rfl, rfl⟩

theorem clocked_writeEdge (winc : Bool) (f : Frame) (q : Afifo) : q.Clocked (q.writeEdge winc f q.rgray) :=
  ⟨_, _, _, _, .edge winc f, .stay, .inl rfl, .inl rfl, rfl⟩

theorem clocked_readEdge (rinc : Bool) (q : Afifo) : q.Clocked (q.readEdge rinc q.wgray) :=
  ⟨_, _, _, _, .stay, .edge rinc, .inl rfl, .inl rfl, rfl⟩

/-- Two simultaneous edges; `u` and `u'` are what the samples return in the edges that give the new gray values: they do not reach
these (R115). -/
theorem clocked_join {winc rinc : Bool} {f : Frame} {g g' u u' : Ptr} {q : Afifo}
    (hg : g = q.rgray ∨ g = (q.readEdge rinc u').rgray) (hg' : g' = q.wgray ∨ g' = (q.writeEdge winc f u).wgray) :
    q.Clocked (Afifo.join (q.writeEdge winc f g) (q.readEdge rinc g')) :=
  ⟨g, g', q.writeEdge winc f g, q.readEdge rinc g', .edge winc f, .edge rinc, hg, hg', rfl⟩

/-! ### The clocks keep the invariant of a queue -/

theorem memLookup_memWrite_isSome {m : Mem} {k j : Nat} (v : Frame) (h : (memLookup m j).isSome = true) :
    (memLookup (memWrite m k v) j).isSome = true := by
  by_cases hj : j = k
  · rw [hj, memLookup_memWrite_same, Option.isSome_some]
  · rw [memLookup_memWrite_other _ _ _ _ hj, h]

/-- Writing the entry of the counter `hi` extends the written entries by one. -/
theorem writtenOn_memWrite {m : Mem} {lo hi : Nat} (v : Frame) (h : Mem.writtenOn m lo hi) :
    Mem.writtenOn (memWrite m (hi % 64) v) lo (hi + 1) := by
  intro n hlo hn
  obtain hlt | rfl : n < hi ∨ n = hi := by omega
  · exact memLookup_memWrite_isSome v (h n hlo hlt)
  · rw [memLookup_memWrite_same, Option.isSome_some]

/-- A queue that is not full has room: the write counter is not 64 ahead of the view. -/
theorem lt_of_not_wfull {q : Afifo} {w w1 w2 : Nat} (hq : q.writeSideAt w w1 w2) (hw : w ≤ w2 + 64)
    (hf : q.wfull = false) : w < w2 + 64 := by
  obtain ⟨hb, hg, -, h2⟩ := hq
  refine Nat.lt_of_le_of_ne hw fun e => ?_
  have hfull : q.wfull = true := by
    rw [wfull_iff (hg.trans (congrArg b2g hb.symm)), hb, h2, g2b_grayOf, e, BitVec.ofNat_add, add_sub_cancel_left]
  simp [hfull] at hf

/-- A queue that is not empty has an entry: the read counter is behind the view. -/
theorem lt_of_not_rempty {q : Afifo} {r r1 r2 : Nat} (hq : q.readSideAt r r1 r2) (hr : r ≤ r2)
    (he : q.rempty = false) : r < r2 := by
  obtain ⟨hb, hg, -, h2⟩ := hq
  refine Nat.lt_of_le_of_ne hr fun e => ?_
  have hempty : q.rempty = true := by
    rw [rempty_iff (hg.trans (congrArg b2g hb.symm)), hb, h2, g2b_grayOf, e]
    exact sub_self _
  simp [hempty] at he

/-- A write domain's move takes its counter from `w` to some `w'`, never past the view, and writes what it passes; if its sample
stands at `x`, its ranks stay in order and do not go back. -/
theorem Afifo.WriteMove.counts {q q' : Afifo} {g : Ptr} {w w1 w2 : Nat} (h : q.WriteMove g q')
    (hq : q.writeSideAt w w1 w2) (hw : w ≤ w2 + 64) (h21 : w2 ≤ w1) :
    ∃ w', w ≤ w' ∧ w' ≤ w2 + 64 ∧ q'.wgray = grayOf w' ∧
      (∀ lo, Mem.writtenOn q.mem lo w → Mem.writtenOn q'.mem lo w') ∧
      ∀ x, w1 ≤ x → g = grayOf x → ∃ y1 y2, q'.writeSideAt w' y1 y2 ∧ w2 ≤ y2 ∧ y2 ≤ y1 ∧ y1 ≤ x := by
  obtain ⟨hb, hg, h1, h2⟩ := id hq
  cases h with
  | stay => exact ⟨w, le_rfl, hw, hg, fun _ hm => hm, fun x hx _ => ⟨w1, w2, hq, le_rfl, h21, hx⟩⟩
  | edge winc f =>
    cases hok : q.wrOk winc with
    | false =>
      rw [writeEdge_of_not_wrOk hok]
      exact ⟨w, le_rfl, hw, hg, fun _ hm => hm, fun x hx hgx => ⟨x, w1, ⟨hb, hg, hgx, h1⟩, h21, hx, le_rfl⟩⟩
    | true =>
      have hfull : q.wfull = false := by simp_all [Afifo.wrOk]
      have hnext : q.wbin + 1 = BitVec.ofNat 7 (w + 1) := by rw [hb, ofNat_ptr_succ]
      have hgray : b2g (q.wbin + 1) = grayOf (w + 1) := congrArg b2g hnext
      rw [writeEdge_of_wrOk hok]
      refine ⟨w + 1, by omega, lt_of_not_wfull hq hw hfull, hgray, fun lo hm => ?_,
        fun x hx hgx => ⟨x, w1, ⟨hnext, hgray, hgx, h1⟩, h21, hx, le_rfl⟩⟩
      simp only [hb, entryAddr_ofNat]
      exact writtenOn_memWrite f hm

/-- A read domain's move takes its counter from `r` to some `r'`, never past the view; if its sample stands at `x`, its ranks stay
in order and do not go back. -/
theorem Afifo.ReadMove.counts {q q' : Afifo} {g : Ptr} {r r1 r2 : Nat} (h : q.ReadMove g q')
    (hq : q.readSideAt r r1 r2) (hr : r ≤ r2) (h21 : r2 ≤ r1) :
    ∃ r', r ≤ r' ∧ r' ≤ r2 ∧ q'.rgray = grayOf r' ∧
      ∀ x, r1 ≤ x → g = grayOf x → ∃ y1 y2, q'.readSideAt r' y1 y2 ∧ r2 ≤ y2 ∧ y2 ≤ y1 ∧ y1 ≤ x := by
  obtain ⟨hb, hg, h1, h2⟩ := id hq
  cases h with
  | stay => exact ⟨r, le_rfl, hr, hg, fun x hx _ => ⟨r1, r2, hq, le_rfl, h21, hx⟩⟩
  | edge rinc =>
    cases hok : q.rdPop rinc with
    | false =>
      rw [readEdge_of_not_rdPop hok]
      exact ⟨r, le_rfl, hr, hg, fun x hx hgx => ⟨x, r1, ⟨hb, hg, hgx, h1⟩, h21, hx, le_rfl⟩⟩
    | true =>
      have hempty : q.rempty = false := by simp_all [Afifo.rdPop]
      have hnext : q.rbin + 1 = BitVec.ofNat 7 (r + 1) := by rw [hb, ofNat_ptr_succ]
      have hgray : b2g (q.rbin + 1) = grayOf (r + 1) := congrArg b2g hnext
      rw [readEdge_of_rdPop hok]
      exact ⟨r + 1, by omega, lt_of_not_rempty hq hr hempty, hgray,
        fun x hx hgx => ⟨x, r1, ⟨hnext, hgray, hgx, h1⟩, h21, hx, le_rfl⟩⟩

theorem Afifo.WriteMove.mem_wf {q q' : Afifo} {g : Ptr} (h : q.WriteMove g q') (hq : Mem.wf q.mem = true) :
    Mem.wf q'.mem = true := by
  cases h with
  | stay => exact hq
  | edge winc f => exact writeEdge_mem_wf winc f g q hq

/-- A sample of a gray register that goes from `a` to `b` stands at a counter between the two. -/
theorem exists_grayOf_between {g old new : Ptr} {a b : Nat} (hg : g = old ∨ g = new) (ho : old = grayOf a)
    (hn : new = grayOf b) (hab : a ≤ b) : ∃ x, a ≤ x ∧ x ≤ b ∧ g = grayOf x := by
  obtain rfl | rfl := hg
  · exact ⟨a, le_rfl, hab, ho⟩
  · exact ⟨b, hab, le_rfl, hn⟩

theorem Afifo.Clocked.mem_wf {q q' : Afifo} (h : q.Clocked q') (hq : Mem.wf q.mem = true) : Mem.wf q'.mem = true := by
  obtain ⟨g, g', w, r, hw, -, -, -, rfl⟩ := h
  exact hw.mem_wf hq

/-- R24 for one queue: whatever edges fall and whatever the samples return, the chain of the counters holds again. -/
theorem Afifo.Clocked.inv {q q' : Afifo} (h : q.Clocked q') (hq : q.Inv) : q'.Inv := by
  obtain ⟨⟨h21w, h1r, hr2, h21r, h1w, hw64⟩, hwrite, hread, hwritten, hwf⟩ := hq.countedBy
  obtain ⟨g, g', w, r, hw, hr, hg, hg', rfl⟩ := h
  obtain ⟨w', hww', hw'64, hwgray, hmem, hwranks⟩ := hw.counts hwrite hw64 h21w
  obtain ⟨r', hrr', hr'2, hrgray, hrranks⟩ := hr.counts hread hr2 h21r
  obtain ⟨x, hrx, hxr', hgx⟩ := exists_grayOf_between hg hread.2.1 hrgray hrr'
  obtain ⟨x', hwx', hx'w', hgx'⟩ := exists_grayOf_between hg' hwrite.2.1 hwgray hww'
  obtain ⟨w1', w2', hwrite', hw2, hw21', hw1x⟩ := hwranks x (h1r.trans hrx) hgx
  obtain ⟨r1', r2', hread', hr2', hr21', hr1x⟩ := hrranks x' (h1w.trans hwx') hgx'
  exact Afifo.CountedBy.inv (c := ⟨w', w1', w2', r', r1', r2'⟩)
    { ordered := ⟨hw21', hw1x.trans hxr', hr'2.trans hr2', hr21', hr1x.trans hx'w', by simp only; omega⟩
      write := hwrite'
      read := hread'
      written := fun n hn => hmem _ hwritten n (hrr'.trans hn)
      wf := hw.mem_wf hwf }

/-! ### What a step can do to the registers -/

/-- All registers and arrays are the same in two states. -/
def State.sameRegs (s t : State) : Prop :=
  t.inq = s.inq ∧ t.outq = s.outq ∧ t.txRun = s.txRun ∧ t.gsync = s.gsync ∧ t.afifo = s.afifo

/-- The source registers of a GSYNC in one step: GC_INC with `inc` or, for no source edge, what GC_INC does without `inc` (R113). -/
def Gsync.SourceMove (g g' : Gsync) : Prop :=
  ∃ inc, (g'.srcBin, g'.srcGray) = grayStep inc g.srcBin g.srcGray

/-- What one step can do to the registers and to the level of `arst_n`: leave them (reset may be released), clock them while reset is
released, or perform RESET. -/
inductive State.Move (s t : State) : Prop
  | idle (regs : s.sameRegs t) (level : t.arstN = false → s.arstN = false)
  | clocked (level : t.arstN = true) (inq : s.inq.Clocked t.inq) (outq : s.outq.Clocked t.outq)
      (afifo : s.afifo.Clocked t.afifo) (gsync : s.gsync.SourceMove t.gsync)
  | cleared (regs : (setReset false s).sameRegs t)

theorem Gsync.SourceMove.refl (g : Gsync) : g.SourceMove g := ⟨false, rfl⟩

theorem Gsync.SourceMove.gray {g g' : Gsync} (h : g.SourceMove g') (hg : g.srcGray = b2g g.srcBin) :
    g'.srcGray = b2g g'.srcBin := by
  obtain ⟨inc, e⟩ := h
  have hn := grayStep_gray (inc := inc) hg
  rwa [← e] at hn

theorem setCodec_move (p : CodecPorts) (s : State) : s.Move (setCodec s p) := .idle ⟨rfl, rfl, rfl, rfl, rfl⟩ id

theorem setGray_move (p : GrayPorts) (s : State) : s.Move (setGray s p) := .idle ⟨rfl, rfl, rfl, rfl, rfl⟩ id

theorem setReset_move (n : Bool) (s : State) : s.Move (setReset n s) := by
  cases n with
  | false => exact .cleared ⟨rfl, rfl, rfl, rfl, rfl⟩
  | true => exact .idle ⟨rfl, rfl, rfl, rfl, rfl⟩ (by simp [setReset_true])

/-- An edge or pair that keeps the level moves the registers if it leaves them in reset (R220) and clocks them out of it. -/
theorem State.Move.of_level {s t : State} (level : t.arstN = s.arstN) (held : s.arstN = false → s.sameRegs t)
    (released : s.arstN = true →
      s.inq.Clocked t.inq ∧ s.outq.Clocked t.outq ∧ s.afifo.Clocked t.afifo ∧ s.gsync.SourceMove t.gsync) :
    s.Move t := by
  cases h : s.arstN with
  | false => exact .idle (held h) fun _ => h
  | true =>
    obtain ⟨hi, ho, ha, hg⟩ := released h
    exact .clocked (level.trans h) hi ho ha hg

theorem taskStep_move (inp : TaskIn) (s : State) : s.Move (taskStep inp s) := by
  refine .of_level rfl (fun h => ?_) (fun h => ⟨?_, ?_, .refl _, .refl _⟩)
  · simp [State.sameRegs, taskStep_eq, h]
  · simpa [taskStep_eq, h] using clocked_readEdge _ _
  · simpa [taskStep_eq, h] using clocked_writeEdge _ _ _

theorem isrStep_move (inp : IsrIn) (s : State) : s.Move (isrStep inp s) := by
  refine .of_level rfl (fun h => ?_) (fun h => ⟨?_, ?_, .refl _, .refl _⟩)
  · simp [State.sameRegs, isrStep_eq, h]
  · simpa [isrStep_eq, h] using clocked_writeEdge _ _ _
  · simpa [isrStep_eq, h] using clocked_readEdge _ _

theorem pairStep_move (t : TaskIn) (i : IsrIn) (see : See) (s : State) : s.Move (pairStep t i see s) := by
  obtain ⟨a, b, c, d, ha, hb, hc, hd, e⟩ := pairStep_fields t i see s
  rw [e]
  refine .of_level rfl (fun h => ?_) (fun h => ?_)
  · simp [State.sameRegs, h, Afifo.join]
  · simp only [isrStep_eq, taskStep_eq, taskEdge_inq, taskEdge_outq, isrEdge_inq, isrEdge_outq, h, if_true] at *
    exact ⟨clocked_join hc hb, clocked_join ha hd, .refl _, .refl _⟩

theorem unitWrite_move (winc : Bool) (f : Frame) (s : State) : s.Move (unitWrite winc f s.afifo.rgray s) := by
  refine .of_level rfl (fun h => ?_) (fun h => ⟨.refl _, .refl _, ?_, .refl _⟩)
  · simp [State.sameRegs, h]
  · simpa [h] using clocked_writeEdge _ _ _

theorem unitRead_move (rinc : Bool) (s : State) : s.Move (unitRead rinc s.afifo.wgray s) := by
  refine .of_level rfl (fun h => ?_) (fun h => ⟨.refl _, .refl _, ?_, .refl _⟩)
  · simp [State.sameRegs, h]
  · simpa [h] using clocked_readEdge _ _

theorem unitPair_move (winc : Bool) (f : Frame) (rinc : Bool) (see : See) (s : State) :
    s.Move (unitPair winc f rinc see s) := by
  refine .of_level rfl (fun h => ?_) (fun h => ⟨.refl _, .refl _, ?_, .refl _⟩)
  · simp [State.sameRegs, unitPair, h, Afifo.join]
  · simp only [unitPair, unitWrite_afifo, unitRead_afifo, h, if_true]
    exact clocked_join (sampled_cases _ _ _) (sampled_cases _ _ _)

theorem gsyncSource_move (inc : Bool) (s : State) : s.Move (gsyncSource inc s) := by
  refine .of_level rfl (fun h => ?_) (fun h => ⟨.refl _, .refl _, .refl _, inc, ?_⟩)
  · simp [State.sameRegs, h]
  · simp [h]

theorem gsyncDest_move (g : Ptr) (s : State) : s.Move (gsyncDest g s) := by
  refine .of_level rfl (fun h => ?_) (fun h => ⟨.refl _, .refl _, .refl _, false, ?_⟩)
  · simp [State.sameRegs, h]
  · simp [h]

theorem gsyncPair_move (inc : Bool) (see : See) (s : State) : s.Move (gsyncPair inc see s) := by
  refine .of_level rfl (fun h => ?_) (fun h => ⟨.refl _, .refl _, .refl _, inc, ?_⟩)
  · simp [State.sameRegs, gsyncPair, h]
  · simp [gsyncPair, h]

theorem exec_move {i : Instr} {s t : State} (h : exec i s = .next t) : s.Move t := by
  obtain ⟨-, ⟨p, hi⟩ | ⟨p, hi⟩⟩ | ⟨inc, -, hi⟩ | ⟨-, hi⟩ | ⟨winc, f, -, hi⟩ | ⟨rinc, -, hi⟩ | ⟨inp, -, hi⟩ |
      ⟨inp, -, hi⟩ | ⟨n, -, hi⟩ := exec_cases i s
  all_goals obtain rfl := Host.Outcome.next.inj (hi.symm.trans h)
  · exact setCodec_move p s
  · exact setGray_move p s
  · exact gsyncSource_move inc s
  · exact gsyncDest_move _ s
  · exact unitWrite_move winc f s
  · exact unitRead_move rinc s
  · exact taskStep_move inp s
  · exact isrStep_move inp s
  · exact setReset_move n s

theorem execPair_move {a b : Instr} {see : See} {s t : State} (h : execPair a b see s = .next t) : s.Move t := by
  obtain ⟨ti, ii, -, -, hp⟩ | ⟨winc, f, rinc, -, -, hp⟩ | ⟨inc, -, -, hp⟩ | ⟨-, hp⟩ := execPair_cases a b see s
  case inr.inr.inr => cases hp.symm.trans h
  all_goals obtain rfl := Host.Outcome.next.inj (hp.symm.trans h)
  · exact pairStep_move ti ii see s
  · exact unitPair_move winc f rinc see s
  · exact gsyncPair_move inc see s

/-- Using up an input line touches no register. -/
theorem State.Move.of_withPending {s t : State} {ls : List InputLine} (h : (s.withPending ls).Move t) : s.Move t := by
  cases h with
  | idle regs level => exact .idle regs level
  | clocked level inq outq afifo gsync => exact .clocked level inq outq afifo gsync
  | cleared regs => exact .cleared regs

theorem step_move {s t : State} (h : step s = .next t) : s.Move t := by
  obtain ⟨-, rfl⟩ | ⟨l, rest, i, -, -, hi⟩ | ⟨l, rest, a, b, see, -, -, hab⟩ := step_next_cases h
  · exact .idle ⟨rfl, rfl, rfl, rfl, rfl⟩ id
  · exact (exec_move hi).of_withPending
  · exact (execPair_move hab).of_withPending

/-! ### The invariant of the machine -/

theorem setReset_false_inv {s : State} (hi : Mem.wf s.inq.mem = true) (ho : Mem.wf s.outq.mem = true)
    (ha : Mem.wf s.afifo.mem = true) : (setReset false s).Inv :=
  ⟨resetRegs_inv hi, resetRegs_inv ho, resetRegs_inv ha, b2g_zero.symm, fun _ => ⟨rfl, rfl, rfl, rfl, rfl⟩⟩

theorem Afifo.Inv.mem_wf {q : Afifo} (h : q.Inv) : Mem.wf q.mem = true := h.countedBy.wf

/-- Apart from the level, the invariant speaks of the registers and arrays only. -/
theorem State.sameRegs.inv {s t : State} (h : s.sameRegs t) (level : t.arstN = false → s.arstN = false) (hs : s.Inv) :
    t.Inv := by
  obtain ⟨hi, ho, ht, hg, ha⟩ := h
  simp only [State.Inv, State.heldInReset, hi, ho, ht, hg, ha]
  obtain ⟨hinq, houtq, hafifo, hgray, hreset⟩ := hs
  exact ⟨hinq, houtq, hafifo, hgray, fun h0 => hreset (level h0)⟩

theorem State.Move.inv {s t : State} (h : s.Move t) (hs : s.Inv) : t.Inv := by
  obtain ⟨hinq, houtq, hafifo, hgray, -⟩ := id hs
  cases h with
  | idle regs level => exact regs.inv level hs
  | clocked level inq outq afifo gsync =>
    exact ⟨inq.inv hinq, outq.inv houtq, afifo.inv hafifo, gsync.gray hgray, fun h0 => by simp [level] at h0⟩
  | cleared regs =>
    exact regs.inv (fun _ => rfl)
      (setReset_false_inv (Afifo.Inv.mem_wf hinq) (Afifo.Inv.mem_wf houtq) (Afifo.Inv.mem_wf hafifo))

/-- Settles O42: a step is a move of the registers (`step_move`), and every move keeps R24. -/
theorem everyStepKeepsTheInvariant : Obligations.EveryStepKeepsTheInvariant := by
  unfold Obligations.EveryStepKeepsTheInvariant
  intro s t hs h
  exact (step_move h).inv hs

/-- Settles O41: the state after reset has the registers that RESET leaves. -/
theorem resetHasTheInvariant : Obligations.ResetHasTheInvariant := by
  unfold Obligations.ResetHasTheInvariant
  obtain ⟨hi, ho, ha⟩ := reset_mem_wf
  have hregs : (setReset false State.reset).sameRegs State.reset := ⟨rfl, rfl, rfl, rfl, rfl⟩
  exact hregs.inv (fun _ => rfl) (setReset_false_inv hi ho ha)

/-- Settles O43, over the three things a step can do to a queue. -/
theorem everyStepKeepsTheArraysCanonical : Obligations.EveryStepKeepsTheArraysCanonical := by
  unfold Obligations.EveryStepKeepsTheArraysCanonical
  intro s t hi ho ha h
  cases step_move h with
  | idle regs level =>
    obtain ⟨ei, eo, -, -, ea⟩ := regs
    rw [ei, eo, ea]
    exact ⟨hi, ho, ha⟩
  | clocked level inq outq afifo gsync => exact ⟨inq.mem_wf hi, outq.mem_wf ho, afifo.mem_wf ha⟩
  | cleared regs =>
    obtain ⟨ei, eo, -, -, ea⟩ := regs
    rw [ei, eo, ea]
    exact ⟨resetRegs_mem_wf _ hi, resetRegs_mem_wf _ ho, resetRegs_mem_wf _ ha⟩

/-! ### `OUTQ.tx_run` (R18) -/

/-- `tx_run` says whether the last ISR edge popped, which is what that edge showed as `tx_valid`. -/
abbrev State.txRunIsTxValid (s : State) : Prop := s.txRun = s.ports.isr.txValid

@[simp] theorem resetRegs_rempty (q : Afifo) : q.resetRegs.rempty = true := rfl

/-- In reset OUTQ is empty, so no ISR edge pops (R220). -/
theorem txPop_of_heldInReset {s : State} (hs : s.heldInReset) (h : s.arstN = false) (inp : IsrIn) :
    txPop inp s = false := by
  obtain ⟨-, houtq, -⟩ := hs h
  have hempty : s.outq.rempty = true := houtq ▸ resetRegs_rempty s.outq
  simp [txPop, hempty]

/-- R168: an ISR edge sets `tx_run` to its own pop; in reset both are 0. -/
theorem isrEdge_txRunIsTxValid {s : State} (hs : s.heldInReset) (inp : IsrIn) (a b : Ptr) :
    (isrEdge inp a b s).txRunIsTxValid := by
  cases h : s.arstN with
  | false =>
    obtain ⟨-, -, hrun, -⟩ := hs h
    simp [State.txRunIsTxValid, isrPorts, txPop_of_heldInReset hs h, h, hrun]
  | true => simp [State.txRunIsTxValid, isrPorts, h]

theorem setReset_txRunIsTxValid (n : Bool) {s : State} (hs : s.txRunIsTxValid) :
    (setReset n s).txRunIsTxValid := by
  cases n with
  | false => simp [State.txRunIsTxValid, setReset, idlePorts, isrPorts, txPop]
  | true => exact hs

theorem exec_txRunIsTxValid {i : Instr} {s t : State} (hr : s.heldInReset) (hs : s.txRunIsTxValid)
    (h : exec i s = .next t) : t.txRunIsTxValid := by
  obtain ⟨-, ⟨p, hi⟩ | ⟨p, hi⟩⟩ | ⟨inc, -, hi⟩ | ⟨-, hi⟩ | ⟨winc, f, -, hi⟩ | ⟨rinc, -, hi⟩ | ⟨inp, -, hi⟩ |
      ⟨inp, -, hi⟩ | ⟨n, -, hi⟩ := exec_cases i s
  all_goals obtain rfl := Host.Outcome.next.inj (hi.symm.trans h)
  case inr.inr.inr.inr.inr.inr.inl => exact isrEdge_txRunIsTxValid hr inp _ _
  case inr.inr.inr.inr.inr.inr.inr => exact setReset_txRunIsTxValid n hs
  all_goals exact hs

theorem execPair_txRunIsTxValid {a b : Instr} {see : See} {s t : State} (hr : s.heldInReset) (hs : s.txRunIsTxValid)
    (h : execPair a b see s = .next t) : t.txRunIsTxValid := by
  obtain ⟨ti, ii, -, -, hp⟩ | ⟨winc, f, rinc, -, -, hp⟩ | ⟨inc, -, -, hp⟩ | ⟨-, hp⟩ := execPair_cases a b see s
  case inr.inr.inr => cases hp.symm.trans h
  all_goals obtain rfl := Host.Outcome.next.inj (hp.symm.trans h)
  case inl =>
    exact isrEdge_txRunIsTxValid hr ii (sampled see.s3 s.inq.rgray (taskStep ti s).inq.rgray)
      (sampled see.s4 s.outq.wgray (taskStep ti s).outq.wgray)
  all_goals exact hs

/-- Settles O44: only an ISR edge and RESET write `tx_run` or `tx_valid`, and each sets both alike. -/
theorem txRunRemembersTheLastPop : Obligations.TxRunRemembersTheLastPop := by
  unfold Obligations.TxRunRemembersTheLastPop
  intro s t hinv hs h
  obtain ⟨-, -, -, -, hr⟩ := hinv
  obtain ⟨-, rfl⟩ | ⟨l, rest, i, -, -, hi⟩ | ⟨l, rest, a, b, see, -, -, hab⟩ := step_next_cases h
  · exact hs
  · exact exec_txRunIsTxValid (s := s.withPending rest) hr hs hi
  · exact execPair_txRunIsTxValid (s := s.withPending rest) hr hs hab

/-! ### The state after reset (R28) -/

@[simp] theorem resetRegs_wfull (q : Afifo) : q.resetRegs.wfull = false := by simp [Afifo.wfull]

@[simp] theorem resetRegs_wcount (q : Afifo) : q.resetRegs.wcount = 0 := by simp [Afifo.wcount]

@[simp] theorem resetRegs_rcount (q : Afifo) : q.resetRegs.rcount = 0 := by simp [Afifo.rcount]

/-- Settles O40: both queues are a cleared queue, and the edges with all inputs 0 show what a cleared queue makes of them. -/
theorem stateAfterReset : Obligations.StateAfterReset := by
  unfold Obligations.StateAfterReset
  refine ⟨rfl, rfl, rfl, ?queues, ?task, ?isr⟩
  case queues =>
    intro q hq
    have hcleared : q = Afifo.fresh.resetRegs := by
      obtain rfl | rfl := hq
      · rfl
      · rfl
    simp [hcleared]
  case task => exact ⟨_, exec_of_taskInputs rfl _, rfl, rfl, rfl⟩
  case isr => exact ⟨_, exec_of_isrInputs rfl _, rfl, rfl, rfl⟩

end Sys2Proof.Machine

/-! # Proofs of the statements of spec/20_memory.md: the queues are first-in first-out, and when a push or a pop is seen -/

namespace Sys2Proof.Machine

/-! ### What a queue holds, by its counters

The frames held are the entries of the counters from `rbin` up to `wbin`; a push adds a counter at the end, a pop takes the first
one. -/

/-- The frame that a counter's entry shows. -/
def Mem.frameAt (id : ArrayId) (m : Mem) (n : Nat) : Frame := memRead id m (entryAddr (BitVec.ofNat 7 n))

theorem contents_eq_map_range' {q : Afifo} {r w : Nat} (id : ArrayId) (hr : q.rbin = BitVec.ofNat 7 r)
    (hw : q.wbin = BitVec.ofNat 7 w) (hle : r ≤ w) (h64 : w ≤ r + 64) :
    q.contents id = (List.range' r (w - r)).map (Mem.frameAt id q.mem) := by
  have hocc : q.occ.toNat = w - r := by rw [Afifo.occ, hr, hw, toNat_ofNat_sub_ofNat hle h64]
  simp only [Afifo.contents, hocc, List.range'_eq_map_range, List.map_map]
  refine List.map_congr_left fun k _ => ?_
  simp only [Afifo.entry, Mem.frameAt, Function.comp_apply, hr, BitVec.ofNat_add]

/-- Two counters less than 64 apart have different entries, so writing one leaves the other. -/
theorem frameAt_memWrite_of_lt {id : ArrayId} {m : Mem} {n w : Nat} (f : Frame) (hn : n < w) (h64 : w < n + 64) :
    Mem.frameAt id (memWrite m (entryAddr (BitVec.ofNat 7 w)).toNat f) n = Mem.frameAt id m n := by
  refine memRead_memWrite_other _ _ _ _ _ fun h => ?_
  have haddr := congrArg BitVec.toNat h
  simp only [entryAddr_ofNat] at haddr
  omega

theorem frameAt_memWrite_same (id : ArrayId) (m : Mem) (w : Nat) (f : Frame) :
    Mem.frameAt id (memWrite m (entryAddr (BitVec.ofNat 7 w)).toNat f) w = f :=
  memRead_memWrite_same _ _ _ _

theorem wfull_eq_false_of_wrOk {winc : Bool} {q : Afifo} (h : q.wrOk winc = true) : q.wfull = false := by
  simp only [Afifo.wrOk, Bool.and_eq_true, Bool.not_eq_true'] at h
  exact h.2

theorem rempty_eq_false_of_rdPop {rinc : Bool} {q : Afifo} (h : q.rdPop rinc = true) : q.rempty = false := by
  simp only [Afifo.rdPop, Bool.and_eq_true, Bool.not_eq_true'] at h
  exact h.2

/-- R47, R140 for the write edge: it appends the frame exactly when `wr_ok`. -/
theorem contents_writeEdge {q : Afifo} (h : q.Inv) (id : ArrayId) (winc : Bool) (f : Frame) (g : Ptr) :
    (q.writeEdge winc f g).contents id = q.contents id ++ if q.wrOk winc then [f] else [] := by
  cases hok : q.wrOk winc with
  | false =>
    rw [writeEdge_of_not_wrOk hok]
    exact (List.append_nil _).symm
  | true =>
    obtain ⟨⟨h21, h1r, hr2, h21r, h1w, hw64⟩, hwrite, hread, -, -⟩ := h.countedBy
    have hroom := lt_of_not_wfull hwrite hw64 (wfull_eq_false_of_wrOk hok)
    generalize q.counters = c at *
    obtain ⟨hw, -⟩ := hwrite
    obtain ⟨hr, -⟩ := hread
    have hnext : (q.writeEdge winc f g).wbin = BitVec.ofNat 7 (c.wbin + 1) := by
      rw [writeEdge_of_wrOk hok, ofNat_ptr_succ, hw]
    have hmem : (q.writeEdge winc f g).mem = memWrite q.mem (entryAddr (BitVec.ofNat 7 c.wbin)).toNat f := by
      rw [writeEdge_of_wrOk hok, hw]
    rw [contents_eq_map_range' (q := q.writeEdge winc f g) id hr hnext (by omega) (by omega), hmem,
      contents_eq_map_range' id hr hw (by omega) (by omega), Nat.succ_sub (by omega), List.range'_1_concat,
      List.map_append, List.map_singleton, Nat.add_sub_cancel' (by omega), frameAt_memWrite_same, if_pos rfl]
    congr 1
    refine List.map_congr_left fun n hn => ?_
    obtain ⟨hlo, hhi⟩ := List.mem_range'_1.1 hn
    exact frameAt_memWrite_of_lt f (by omega) (by omega)

/-- A read edge that pops takes the first frame held, which is the one at the read pointer. -/
theorem contents_eq_cons_of_rdPop {q : Afifo} {rinc : Bool} (h : q.Inv) (id : ArrayId) (hok : q.rdPop rinc = true)
    (g : Ptr) : q.contents id = q.entry id q.rbin :: (q.readEdge rinc g).contents id := by
  obtain ⟨⟨h21, h1r, hr2, h21r, h1w, hw64⟩, hwrite, hread, -, -⟩ := h.countedBy
  have hheld := lt_of_not_rempty hread hr2 (rempty_eq_false_of_rdPop hok)
  generalize q.counters = c at *
  obtain ⟨hw, -⟩ := hwrite
  obtain ⟨hr, -⟩ := hread
  have hnext : (q.readEdge rinc g).rbin = BitVec.ofNat 7 (c.rbin + 1) := by
    rw [readEdge_of_rdPop hok, ofNat_ptr_succ, hr]
  rw [contents_eq_map_range' id hr hw (by omega) (by omega),
    contents_eq_map_range' (q := q.readEdge rinc g) id hnext hw (by omega) (by omega), readEdge_mem,
    show c.wbin - c.rbin = c.wbin - (c.rbin + 1) + 1 by omega, List.range'_succ, List.map_cons, hr, Mem.frameAt,
    Afifo.entry]

/-- R47, R140 for the read edge: it removes the oldest frame exactly when `rd_pop`. -/
theorem contents_readEdge {q : Afifo} (h : q.Inv) (id : ArrayId) (rinc : Bool) (g : Ptr) :
    (q.readEdge rinc g).contents id = (q.contents id).drop (if q.rdPop rinc then 1 else 0) := by
  cases hok : q.rdPop rinc with
  | false =>
    rw [readEdge_of_not_rdPop hok]
    rfl
  | true =>
    rw [contents_eq_cons_of_rdPop h id hok g]
    rfl

theorem head?_contents {q : Afifo} (h : q.Inv) (id : ArrayId) (he : q.rempty = false) :
    (q.contents id).head? = some (q.entry id q.rbin) := by
  have hok : q.rdPop true = true := by simp [Afifo.rdPop, he]
  rw [contents_eq_cons_of_rdPop h id hok 0, List.head?_cons]

/-- R47, R142: a push and a pop at one instant hold what a read edge and then a write edge hold: neither reads what the other
writes. -/
theorem contents_join {q : Afifo} (h : q.Inv) (id : ArrayId) (winc rinc : Bool) (f : Frame) (g g' : Ptr) :
    (Afifo.join (q.writeEdge winc f g) (q.readEdge rinc g')).contents id =
      (q.contents id).drop (if q.rdPop rinc then 1 else 0) ++ if q.wrOk winc then [f] else [] := by
  have hread : (q.readEdge rinc q.wgray).Inv := (clocked_readEdge rinc q).inv h
  calc (Afifo.join (q.writeEdge winc f g) (q.readEdge rinc g')).contents id
      = ((q.readEdge rinc q.wgray).writeEdge winc f g).contents id := rfl
    _ = (q.readEdge rinc q.wgray).contents id ++ if q.wrOk winc then [f] else [] := contents_writeEdge hread id winc f g
    _ = _ := by rw [contents_readEdge h]

/-! ### The requests of the block's edges -/

/-- SEND is QUEUED only where the queue is not full, so the push it asks for succeeds (R162). -/
theorem wrOk_sendStatus (inp : TaskIn) (q : Afifo) :
    q.wrOk (sendStatus inp q == .queued) = (sendStatus inp q == .queued) := by
  cases hf : q.wfull with
  | false => simp [Afifo.wrOk, hf]
  | true =>
    have hne : sendStatus inp q ≠ .queued := by
      simp only [sendStatus, hf, if_true]
      split_ifs <;> simp
    simp [hne, Afifo.wrOk]

/-- TXSVC pops only where OUTQ does not show empty (R168). -/
theorem rdPop_txPop (inp : IsrIn) (s : State) : s.outq.rdPop (txPop inp s) = txPop inp s := by
  cases he : s.outq.rempty <;> simp [Afifo.rdPop, txPop, he]

theorem rempty_eq_false_of_txPop {inp : IsrIn} {s : State} (h : txPop inp s = true) : s.outq.rempty = false :=
  rempty_eq_false_of_rdPop ((rdPop_txPop inp s).trans h)

/-- `recv_frame` is the oldest frame of INQ where `recv_valid` (R165). -/
theorem head?_inq_of_recvValid {s : State} (h : s.inq.Inv) (inp : TaskIn) (hv : (taskPorts inp s).recvValid = true) :
    (s.inq.contents .inq).head? = some (taskPorts inp s).recvFrame :=
  head?_contents h .inq (by simpa [taskPorts] using hv)

/-- `tx_frame` is the oldest frame of OUTQ where `tx_valid` (R168). -/
theorem head?_outq_of_txValid {s : State} (h : s.outq.Inv) (inp : IsrIn) (hv : (isrPorts inp s).txValid = true) :
    (s.outq.contents .outq).head? = some (isrPorts inp s).txFrame :=
  head?_contents h .outq (rempty_eq_false_of_txPop hv)

/-- Settles O47: each edge is a read edge of one queue and a write edge of the other. -/
theorem queuesAreFirstInFirstOut : Obligations.QueuesAreFirstInFirstOut := by
  unfold Obligations.QueuesAreFirstInFirstOut
  intro s hs hrel
  obtain ⟨hinq, houtq, -⟩ := hs
  refine ⟨fun i inp hi => ⟨_, exec_of_taskInputs hi s, ?taskInq, head?_inq_of_recvValid hinq inp, ?taskOutq⟩,
    fun i inp hi => ⟨_, exec_of_isrInputs hi s, ?isrOutq, head?_outq_of_txValid houtq inp, ?isrInq⟩⟩
  case taskInq =>
    rw [taskStep_eq, taskEdge_inq, if_pos hrel, contents_readEdge hinq]
    rfl
  case taskOutq =>
    rw [taskStep_eq, taskEdge_outq, if_pos hrel, contents_writeEdge houtq, wrOk_sendStatus]
    exact congrArg _ (if_congr beq_iff_eq rfl rfl)
  case isrOutq =>
    rw [isrStep_eq, isrEdge_outq, if_pos hrel, contents_readEdge houtq, rdPop_txPop]
    rfl
  case isrInq =>
    rw [isrStep_eq, isrEdge_inq, if_pos hrel, contents_writeEdge hinq]
    rfl

/-- Settles O48: at a pair each queue has a write edge and a read edge at one instant (`contents_join`). -/
theorem queuesAreFirstInFirstOutInPairs : Obligations.QueuesAreFirstInFirstOutInPairs := by
  unfold Obligations.QueuesAreFirstInFirstOutInPairs
  intro s a b ti ii see hs hrel ha hb
  obtain ⟨hinq, houtq, -⟩ := hs
  obtain ⟨g₁, g₂, g₃, g₄, -, -, -, -, hpair⟩ := pairStep_fields ti ii see s
  refine ⟨_, (execPair_of_inputs ha hb see s).trans (congrArg _ hpair), ?inq, head?_inq_of_recvValid hinq ti, ?outq,
    head?_outq_of_txValid houtq ii⟩
  case inq =>
    simp only [isrEdge_inq, taskEdge_inq, if_pos hrel, contents_join hinq]
    rfl
  case outq =>
    simp only [isrEdge_outq, taskEdge_outq, if_pos hrel, contents_join houtq, rdPop_txPop, wrOk_sendStatus]
    exact congrArg _ (if_congr beq_iff_eq rfl rfl)

/-! ### When a push or a pop is seen (R49)

The rule at one queue: an edge alone samples the other domain's gray register as it stands (R115 (a)), so a new pointer value is in
the first rank after one edge of the other domain and in the second, which the flags read, after two. -/

/-- A write edge of a queue alone, with what it samples of the queue. -/
def Afifo.writeAlone (winc : Bool) (f : Frame) (q : Afifo) : Afifo := q.writeEdge winc f q.rgray

/-- A read edge of a queue alone, with what it samples of the queue. -/
def Afifo.readAlone (rinc : Bool) (q : Afifo) : Afifo := q.readEdge rinc q.wgray

theorem taskStep_inq {s : State} (inp : TaskIn) (h : s.arstN = true) :
    (taskStep inp s).inq = s.inq.readAlone inp.recvReq := if_pos h

theorem taskStep_outq {s : State} (inp : TaskIn) (h : s.arstN = true) :
    (taskStep inp s).outq = s.outq.writeAlone (sendStatus inp s.outq == .queued) inp.sendFrame := if_pos h

theorem isrStep_inq {s : State} (inp : IsrIn) (h : s.arstN = true) :
    (isrStep inp s).inq = s.inq.writeAlone (rxPass inp s) inp.rxFrame := if_pos h

theorem isrStep_outq {s : State} (inp : IsrIn) (h : s.arstN = true) :
    (isrStep inp s).outq = s.outq.readAlone (txPop inp s) := if_pos h

@[simp] theorem taskStep_arstN (inp : TaskIn) (s : State) : (taskStep inp s).arstN = s.arstN := rfl

@[simp] theorem isrStep_arstN (inp : IsrIn) (s : State) : (isrStep inp s).arstN = s.arstN := rfl

@[simp] theorem taskStep_ports_task (inp : TaskIn) (s : State) : (taskStep inp s).ports.task = taskPorts inp s := rfl

@[simp] theorem isrStep_ports_isr (inp : IsrIn) (s : State) : (isrStep inp s).ports.isr = isrPorts inp s := rfl

/-! ### The edges without a request, and those with one -/

/-- Without a request only the ranks of the write domain shift (R133). -/
theorem writeAlone_false (f : Frame) (q : Afifo) :
    q.writeAlone false f = { q with wq1Rgray := q.rgray, wq2Rgray := q.wq1Rgray } := writeEdge_of_not_wrOk rfl

/-- Without a request only the ranks of the read domain shift (R134). -/
theorem readAlone_false (q : Afifo) :
    q.readAlone false = { q with rq1Wgray := q.wgray, rq2Wgray := q.rq1Wgray } := readEdge_of_not_rdPop rfl

theorem writeAlone_true {q : Afifo} (f : Frame) (h : q.wfull = false) :
    q.writeAlone true f =
      { q with
        mem := memWrite q.mem (entryAddr q.wbin).toNat f
        wbin := q.wbin + 1
        wgray := b2g (q.wbin + 1)
        wq1Rgray := q.rgray
        wq2Rgray := q.wq1Rgray } := writeEdge_of_wrOk (by simp [Afifo.wrOk, h])

theorem readAlone_true {q : Afifo} (h : q.rempty = false) :
    q.readAlone true =
      { q with rbin := q.rbin + 1, rgray := b2g (q.rbin + 1), rq1Wgray := q.wgray, rq2Wgray := q.rq1Wgray } :=
  readEdge_of_rdPop (by simp [Afifo.rdPop, h])

/-! ### A push into an empty queue -/

/-- The queue after a push and then `n` read edges without a request. -/
def Afifo.afterPush (f : Frame) (q : Afifo) : Nat → Afifo
  | 0 => q.writeAlone true f
  | n + 1 => (q.afterPush f n).readAlone false

/-- The queue is empty, and the read domain's first rank and the write domain's view say so. -/
structure Afifo.EmptyAndSeen (q : Afifo) : Prop where
  wgray : q.wgray = b2g q.wbin
  rgray : q.rgray = b2g q.wbin
  rbin : q.rbin = q.wbin
  rq1 : q.rq1Wgray = q.wgray
  wq2 : q.wq2Rgray = q.rgray

theorem emptyAndSeen_of_inv {q : Afifo} (h : q.Inv) (hocc : q.occ = 0) (hrq1 : q.rq1Wgray = q.wgray)
    (hwq2 : q.wq2Rgray = q.rgray) : q.EmptyAndSeen := by
  obtain ⟨⟨hwgray, hrgray⟩, -⟩ := h
  have hrbin : q.rbin = q.wbin := (sub_eq_zero.1 hocc).symm
  exact ⟨hwgray, hrbin ▸ hrgray, hrbin, hrq1, hwq2⟩

section
variable {q : Afifo} (h : q.EmptyAndSeen) (f : Frame)
include h

theorem wfull_of_emptyAndSeen : q.wfull = false := by
  rw [← Bool.not_eq_true, wfull_iff h.wgray, h.wq2, h.rgray, g2b_b2g_ptr, sub_self]
  decide

/-- After one read edge the push has not reached the second rank. -/
theorem rempty_afterPush_one : (q.afterPush f 1).rempty = true := by
  simp [Afifo.rempty, Afifo.afterPush, readAlone_false, writeAlone_true f (wfull_of_emptyAndSeen h), h.rq1, h.rgray,
    h.wgray]

/-- After two read edges the push has reached the second rank. -/
theorem rempty_afterPush_two : (q.afterPush f 2).rempty = false := by
  have hne : b2g q.wbin ≠ b2g (q.wbin + 1) := fun e => by simpa using b2g_ptr_inj e
  simpa [Afifo.rempty, Afifo.afterPush, readAlone_false, writeAlone_true f (wfull_of_emptyAndSeen h), h.rgray] using hne

/-- The frame pushed is the next to be read. -/
theorem entry_afterPush_two (id : ArrayId) : (q.afterPush f 2).entry id (q.afterPush f 2).rbin = f := by
  simp only [Afifo.afterPush, readAlone_false, writeAlone_true f (wfull_of_emptyAndSeen h), Afifo.entry, h.rbin,
    memRead_memWrite_same]

end

/-! ### A pop of a queue whose write view is up to date -/

/-- The queue after a pop and then `n` write edges without a request. -/
def Afifo.afterPop (q : Afifo) : Nat → Afifo
  | 0 => q.readAlone true
  | n + 1 => (q.afterPop n).writeAlone false 0

/-- The queue shows a frame to read, and both ranks of the write domain hold the read pointer. -/
structure Afifo.HeldAndSeen (q : Afifo) : Prop where
  wgray : q.wgray = b2g q.wbin
  rgray : q.rgray = b2g q.rbin
  rempty : q.rempty = false
  wq1 : q.wq1Rgray = q.rgray
  wq2 : q.wq2Rgray = q.rgray

theorem heldAndSeen_of_inv {q : Afifo} (h : q.Inv) (he : q.rempty = false) (hwq1 : q.wq1Rgray = q.rgray)
    (hwq2 : q.wq2Rgray = q.rgray) : q.HeldAndSeen := by
  obtain ⟨⟨hwgray, hrgray⟩, -⟩ := h
  exact ⟨hwgray, hrgray, he, hwq1, hwq2⟩

section
variable {q : Afifo} (h : q.HeldAndSeen)
include h

/-- After one write edge only the first rank has the new read pointer. -/
theorem afterPop_one :
    q.afterPop 1 =
      { q with
        rbin := q.rbin + 1
        rgray := b2g (q.rbin + 1)
        wq1Rgray := b2g (q.rbin + 1)
        rq1Wgray := q.wgray
        rq2Wgray := q.rq1Wgray } := by
  simp only [Afifo.afterPop, writeAlone_false, readAlone_true h.rempty, h.wq1, h.wq2]

/-- After two write edges both ranks have it. -/
theorem afterPop_two :
    q.afterPop 2 =
      { q with
        rbin := q.rbin + 1
        rgray := b2g (q.rbin + 1)
        wq1Rgray := b2g (q.rbin + 1)
        wq2Rgray := b2g (q.rbin + 1)
        rq1Wgray := q.wgray
        rq2Wgray := q.rq1Wgray } := by
  rw [Afifo.afterPop, afterPop_one h, writeAlone_false]

theorem wcount_afterPop_one : (q.afterPop 1).wcount = q.wcount := by
  rw [afterPop_one h]
  rfl

theorem wfull_afterPop_one : (q.afterPop 1).wfull = q.wfull := by
  rw [afterPop_one h]
  rfl

theorem wcount_afterPop_two : (q.afterPop 2).wcount = q.wcount - 1 := by
  simp only [Afifo.wcount, afterPop_two h, h.wq2, h.rgray, g2b_b2g_ptr, sub_sub]

/-- A full queue shows room after two write edges: its count is then 63. -/
theorem wfull_afterPop_two (hf : q.wfull = true) : (q.afterPop 2).wfull = false := by
  have hgray : (q.afterPop 2).wgray = b2g (q.afterPop 2).wbin := by
    rw [afterPop_two h]
    exact h.wgray
  have hcount : (q.afterPop 2).wcount = 63#7 := by
    rw [wcount_afterPop_two h, Afifo.wcount, (wfull_iff h.wgray).1 hf]
    rfl
  rw [← Bool.not_eq_true, wfull_iff hgray, ← Afifo.wcount, hcount]
  decide

/-- In a full queue the write pointer stands at the entry of the read pointer, 64 counts ahead of it (R139). -/
theorem entryAddr_wbin_of_wfull (hf : q.wfull = true) : entryAddr q.wbin = entryAddr q.rbin := by
  have hcount := (wfull_iff h.wgray).1 hf
  rw [h.wq2, h.rgray, g2b_b2g_ptr] at hcount
  rw [sub_eq_iff_eq_add.1 hcount]
  refine BitVec.eq_of_toNat_eq ?_
  simp only [entryAddr, BitVec.extractLsb'_toNat, BitVec.toNat_add, BitVec.toNat_ofNat, Nat.shiftRight_zero]
  omega

/-- A push at the third write edge after the pop of a full queue reuses the entry that the pop freed. -/
theorem memRead_push_afterPop_two (hf : q.wfull = true) (id : ArrayId) (f : Frame) :
    memRead id ((q.afterPop 2).writeAlone true f).mem (entryAddr q.rbin) = f := by
  rw [writeAlone_true f (wfull_afterPop_two h hf), afterPop_two h, ← entryAddr_wbin_of_wfull h hf]
  exact memRead_memWrite_same id _ _ _

end

/-! ### The operations of the block, as these edges -/

theorem exec_send (space : Bool) (f : Frame) (recvReq : Bool) (s : State) :
    exec (.send space f recvReq) s = .next (taskStep ⟨true, space, recvReq, f⟩ s) := exec_of_taskInputs rfl s

theorem exec_recv (space : Bool) (f : Frame) (s : State) :
    exec (.recv space f) s = .next (taskStep ⟨false, space, true, f⟩ s) := exec_of_taskInputs rfl s

theorem exec_tickT (space : Bool) (f : Frame) (s : State) :
    exec (.tickT space f) s = .next (taskStep ⟨false, space, false, f⟩ s) := exec_of_taskInputs rfl s

theorem exec_rxdep (f : Frame) (txDone space err : Bool) (s : State) :
    exec (.rxdep f txDone space err) s = .next (isrStep ⟨true, txDone, space, err, f⟩ s) := exec_of_isrInputs rfl s

theorem exec_txsvc (space err : Bool) (s : State) :
    exec (.txsvc space err) s = .next (isrStep ⟨false, true, space, err, 0⟩ s) := exec_of_isrInputs rfl s

theorem exec_tickI (space : Bool) (s : State) :
    exec (.tickI space) s = .next (isrStep ⟨false, false, space, false, 0⟩ s) := exec_of_isrInputs rfl s

/-- Where no frame is sent, OUTQ's write edge has no request (R163). -/
theorem sendStatus_beq_queued_of_no_request (space recvReq : Bool) (f : Frame) (q : Afifo) :
    (sendStatus ⟨false, space, recvReq, f⟩ q == .queued) = false := rfl

theorem sendStatus_of_wfull {q : Afifo} (h : q.wfull = true) (recvReq : Bool) (f : Frame) :
    sendStatus ⟨true, false, recvReq, f⟩ q = .dropped := by
  simp [sendStatus, h]

theorem sendStatus_of_not_wfull {q : Afifo} (h : q.wfull = false) (recvReq : Bool) (f : Frame) :
    sendStatus ⟨true, false, recvReq, f⟩ q = .queued := by
  simp [sendStatus, h]

/-- Where no frame is delivered, INQ's write edge has no request (R167). -/
theorem rxPass_of_not_rxValid (txDone space err : Bool) (f : Frame) (s : State) :
    rxPass ⟨false, txDone, space, err, f⟩ s = false := rfl

/-- Where a frame is delivered, the request is whether it is not filtered (R167). -/
theorem rxPass_rxValid (txDone space err : Bool) (f : Frame) (s : State) :
    rxPass ⟨true, txDone, space, err, f⟩ s = (frameExt f || !s.rxStdFilter) := rfl

theorem pass_of_ext_or_unfiltered {f : Frame} {std : Bool} (h : f.getLsbD 93 = true ∨ std = false) :
    (frameExt f || !std) = true := by
  simpa [frameExt] using h

/-- Where the engine has no space, OUTQ's read edge has no request (R168). -/
theorem txPop_without_space (rxValid txDone err : Bool) (f : Frame) (s : State) :
    txPop ⟨rxValid, txDone, false, err, f⟩ s = false := by
  simp [txPop]

/-- Where the engine is done and has space, OUTQ's read edge pops what there is (R168). -/
theorem txPop_of_txDone (rxValid err : Bool) (f : Frame) (s : State) :
    txPop ⟨rxValid, true, true, err, f⟩ s = !s.outq.rempty := by
  simp [txPop]

/-- Settles O54. Each run is, at the queue the clause is about, `Afifo.afterPush` or `Afifo.afterPop`, and then at most one edge
that acts on what it shows. -/
theorem pushesAndPopsAreVisibleAfterTwoEdges : Obligations.PushesAndPopsAreVisibleAfterTwoEdges := by
  unfold Obligations.PushesAndPopsAreVisibleAfterTwoEdges
  intro s f hs
  simp only [execAll, exec_send, exec_recv, exec_tickT, exec_rxdep, exec_txsvc, exec_tickI, Host.Outcome.next.injEq,
    exists_eq_left', taskStep_inq, taskStep_outq, isrStep_inq, isrStep_outq, taskStep_arstN, isrStep_arstN, hs,
    taskStep_rxStdFilter, isrStep_rxStdFilter, taskStep_ports_task, isrStep_ports_isr, taskPorts, isrPorts,
    rxPass_rxValid, rxPass_of_not_rxValid, txPop_without_space, txPop_of_txDone, sendStatus_beq_queued_of_no_request,
    Bool.not_eq_true']
  refine ⟨?deposit, ?send, ?recv, ?txsvc⟩
  case deposit =>
    intro hinv hocc hrq1 _ hwq2 hpass
    have h := emptyAndSeen_of_inv hinv hocc hrq1 hwq2
    simp only [pass_of_ext_or_unfiltered hpass]
    exact ⟨rempty_afterPush_one h f, rempty_afterPush_two h f, rempty_afterPush_two h f, entry_afterPush_two h f .inq⟩
  case send =>
    intro hinv hocc hrq1 _ hwq2
    have h := emptyAndSeen_of_inv hinv hocc hrq1 hwq2
    simp only [sendStatus_of_not_wfull (wfull_of_emptyAndSeen h), beq_self_eq_true]
    exact ⟨rempty_afterPush_one h f, rempty_afterPush_two h f, rempty_afterPush_two h f, entry_afterPush_two h f .outq⟩
  case recv =>
    intro hinv he hwq1 hwq2
    have h := heldAndSeen_of_inv hinv he hwq1 hwq2
    refine ⟨wcount_afterPop_one h, wcount_afterPop_two h, fun hf hpass => ?_⟩
    simp only [pass_of_ext_or_unfiltered hpass, Bool.true_and, Bool.not_eq_true']
    exact ⟨(wfull_afterPop_one h).trans hf, wfull_afterPop_two h hf, memRead_push_afterPop_two h hf .inq f⟩
  case txsvc =>
    intro hinv he hwq1 hwq2
    have h := heldAndSeen_of_inv hinv he hwq1 hwq2
    simp only [he, Bool.not_false]
    refine ⟨wcount_afterPop_one h, wcount_afterPop_two h, fun hf => ⟨?dropped, ?queued, ?reused⟩⟩
    case dropped => exact sendStatus_of_wfull ((wfull_afterPop_one h).trans hf) _ _
    case queued => exact sendStatus_of_not_wfull (wfull_afterPop_two h hf) _ _
    case reused =>
      rw [sendStatus_of_not_wfull (by exact wfull_afterPop_two h hf)]
      exact memRead_push_afterPop_two h hf .outq f

end Sys2Proof.Machine

/-! # Proofs of the statements of spec/30_encoding.md: the decoder and the encoder, the control words, the script -/

namespace Sys2Proof.Machine

/-! ### The bytes of a record -/

theorem portGroup_ofCode_code (g : PortGroup) : PortGroup.ofCode (BitVec.ofNat 8 g.code).toNat = some g := by
  cases g <;> rfl

theorem record_ofBytes_bytes (r : Record) : Record.ofBytes r.bytes = r := by
  have hbits : BitVec.ofNat 216 (bytesToNat r.bytes) = r.frame ++ r.group ++ r.word := by
    have hlt : (r.frame ++ r.group ++ r.word).toNat < 256 ^ recordBytes := BitVec.isLt _
    rw [Record.bytes, bytesToNat_natToBytes, Nat.mod_eq_of_lt hlt]
    exact BitVec.eq_of_toNat_eq (Nat.mod_eq_of_lt hlt)
  have hframe : (r.frame ++ r.group ++ r.word).extractLsb' 112 104 = r.frame :=
    (BitVec.extractLsb'_append_eq_of_le (by decide)).trans BitVec.extractLsb'_append_eq_left
  have hgroup : (r.frame ++ r.group ++ r.word).extractLsb' 104 8 = r.group :=
    (BitVec.extractLsb'_append_eq_of_le (by decide)).trans BitVec.extractLsb'_append_eq_right
  have hword : (r.frame ++ r.group ++ r.word).extractLsb' 0 104 = r.word := BitVec.extractLsb'_append_eq_right
  simp only [Record.ofBytes, hbits, hframe, hgroup, hword]

theorem decode_bytes (r : Record) : decode r.bytes = decodeRecord r := by
  have hlen : r.bytes.length = recordBytes := natToBytes_length _ _
  rw [decode, if_pos hlen, record_ofBytes_bytes]

/-! ### A word on its port group -/

/-- A word no wider than its port group, with a frame only where the group has a frame input, is read by the group's own rule. -/
theorem decodeRecord_of_fits (g : PortGroup) {n : Nat} (w : BitVec n) (f : Frame) (hw : n ≤ g.width)
    (hf : g.frameWidth = 99 ∨ f = 0) :
    decodeRecord { word := w.setWidth 104, group := BitVec.ofNat 8 g.code, frame := f.setWidth 104 } =
      decodeWord g (w.setWidth 104) f := by
  have hword : (w.setWidth 104).toNat < 2 ^ g.width := by
    rw [BitVec.toNat_setWidth]
    exact (Nat.mod_le _ _).trans_lt (w.isLt.trans_le (Nat.pow_le_pow_right two_pos hw))
  have hframe : (f.setWidth 104).toNat < 2 ^ g.frameWidth := by
    rw [BitVec.toNat_setWidth_of_le (by decide)]
    obtain hg | rfl := hf
    · rw [hg]
      exact f.isLt
    · exact Nat.two_pow_pos _
  have hback : (f.setWidth 104).setWidth 99 = f := by
    rw [BitVec.setWidth_setWidth_of_le _ (by decide), BitVec.setWidth_eq]
  simp only [decodeRecord, portGroup_ofCode_code, hword, hframe, decide_true, Bool.and_self, if_true, hback]

/-- The same of a word that has no frame beside it. -/
theorem decodeRecord_of_word (g : PortGroup) {n : Nat} (w : BitVec n) {i : Instr} (hw : n ≤ g.width)
    (h : decodeWord g (w.setWidth 104) 0 = .ok i) :
    decodeRecord { word := w.setWidth 104, group := BitVec.ofNat 8 g.code, frame := (0 : Frame).setWidth 104 } = .ok i :=
  (decodeRecord_of_fits g w 0 hw (.inr rfl)).trans h

/-- An operand that is the whole word is the word's low bits. -/
theorem field_setWidth_self {n : Nat} (w : BitVec n) (h : n ≤ 104) : field (w.setWidth 104) 0 n = w :=
  (BitVec.extractLsb'_setWidth_of_le (by omega)).trans BitVec.extractLsb'_eq_self

/-- Above an operand the word is 0. -/
theorem field_setWidth_of_le {n lo : Nat} (w : BitVec n) (k : Nat) (h : n ≤ lo) : field (w.setWidth 104) lo k = 0#k := by
  ext i hi
  simp [BitVec.getLsbD_of_ge _ _ (h.trans (Nat.le_add_right lo i))]

theorem bitAt_setWidth_bit (b : Bool) : bitAt ((bit b).setWidth 104) 0 = b := by cases b <;> rfl

/-! ### The rows whose pattern fixes bits: the results of ENC_APP, ENC_ADM, MK_APP and MK_ADM

A field of a concatenation is looked up in the part that holds it, by the library's `extractLsb'_append_eq_of_le` and
`extractLsb'_append_eq_of_add_le`; the widths are left as the sums they are, which is the form the two lemmas speak of. -/

theorem decodeWord_encApp (mt : BitVec 12) (mod : BitVec 8) (inst : BitVec 4) (f : Frame) :
    decodeWord .encApp ((0#1 ++ mt ++ 0#4 ++ mod ++ inst).setWidth 104) f = .ok (.encApp mt mod inst) := by
  simp (disch := decide) only [decodeWord, fieldIs, field, BitVec.extractLsb'_setWidth_of_le,
    BitVec.extractLsb'_append_eq_of_le, BitVec.extractLsb'_append_eq_of_add_le, BitVec.extractLsb'_eq_self, Nat.reduceSub,
    -Nat.reduceAdd]
  rfl

theorem decodeWord_encAdm (cmd : AdmCmd) (f : Frame) : decodeWord .encAdm (cmd.setWidth 104) f = .ok (.encAdm cmd) := by
  have hfixed : fieldIs (cmd.setWidth 104) 11 18 0 = true := beq_of_eq (field_setWidth_of_le cmd 18 le_rfl)
  simp only [decodeWord, hfixed, if_true, field_setWidth_self cmd (by decide)]

/-- Bits 94:92 of MK_APP's result: `rtr` = 0, `ext` = 1, and bit 28 of the identifier 0. -/
theorem mkApp_fixedBits (len : BitVec 4) : (len ++ 0#1 ++ 1#1 ++ 0#1).extractLsb' 0 3 = 2#3 := by
  revert len
  decide

theorem decodeWord_mkApp (mt : BitVec 12) (mod : BitVec 8) (inst len : BitVec 4) (data : BitVec 64) (f : Frame) :
    decodeWord .mkApp ((len ++ 0#1 ++ 1#1 ++ 0#1 ++ mt ++ 0#4 ++ mod ++ inst ++ data).setWidth 104) f =
      .ok (.mkApp mt mod inst len data) := by
  simp (disch := decide) only [decodeWord, fieldIs, field, BitVec.extractLsb'_setWidth_of_le,
    BitVec.extractLsb'_append_eq_of_le, BitVec.extractLsb'_append_eq_of_add_le, BitVec.extractLsb'_eq_self, Nat.reduceSub,
    mkApp_fixedBits, -Nat.reduceAdd]
  rfl

/-- Bits 93:75 of MK_ADM's result: `ext` = 0 and bits 28:11 of the identifier 0. -/
theorem mkAdm_fixedBits (len : BitVec 4) (rtr : Bool) : (len ++ bit rtr ++ 0#1 ++ 0#18).extractLsb' 0 19 = 0#19 := by
  revert len rtr
  decide

theorem decodeWord_mkAdm (cmd : AdmCmd) (rtr : Bool) (len : BitVec 4) (data : BitVec 64) (f : Frame) :
    decodeWord .mkAdm ((len ++ bit rtr ++ 0#1 ++ 0#18 ++ cmd ++ data).setWidth 104) f = .ok (.mkAdm cmd rtr len data) := by
  have hrtr : (bit rtr == 1#1) = rtr := by cases rtr <;> rfl
  simp (disch := decide) only [decodeWord, fieldIs, field, bitAt, BitVec.getLsbD_eq_extractLsb',
    BitVec.extractLsb'_setWidth_of_le, BitVec.extractLsb'_append_eq_of_le, BitVec.extractLsb'_append_eq_of_add_le,
    BitVec.extractLsb'_eq_self, Nat.reduceSub, mkAdm_fixedBits, hrtr, -Nat.reduceAdd]
  rfl

/-! ### The control words of the two domains (R71, R72) -/

/-- The operation of TCTL, by the word's own bits. -/
theorem decodeTctl_setWidth (w : BitVec 3) (f : Frame) :
    decodeTctl (w.setWidth 104) f =
      if w.getLsbD 2 then .send (w.getLsbD 1) f (w.getLsbD 0)
      else if w.getLsbD 0 then .recv (w.getLsbD 1) f
      else .tickT (w.getLsbD 1) f := by
  simp [decodeTctl]

/-- The operation of ICTL, by the word's own bits. -/
theorem decodeIctl_setWidth (w : BitVec 4) (f : Frame) :
    decodeIctl (w.setWidth 104) f =
      if w.getLsbD 3 then .rxdep f (w.getLsbD 2) (w.getLsbD 1) (w.getLsbD 0)
      else if w.getLsbD 2 then .txsvc (w.getLsbD 1) (w.getLsbD 0)
      else if w.getLsbD 0 then .errevt (w.getLsbD 1)
      else .tickI (w.getLsbD 1) := by
  simp [decodeIctl]

theorem decodeRecord_tctl (w : BitVec 3) (f : Frame) :
    decodeRecord { word := w.setWidth 104, group := BitVec.ofNat 8 PortGroup.tctl.code, frame := f.setWidth 104 } =
      .ok (decodeTctl (w.setWidth 104) f) :=
  decodeRecord_of_fits .tctl w f le_rfl (.inl rfl)

theorem decodeRecord_ictl (w : BitVec 4) (f : Frame) :
    decodeRecord { word := w.setWidth 104, group := BitVec.ofNat 8 PortGroup.ictl.code, frame := f.setWidth 104 } =
      .ok (decodeIctl (w.setWidth 104) f) :=
  decodeRecord_of_fits .ictl w f le_rfl (.inl rfl)

/-- The bits of a control word of three bits, from the lowest up. -/
theorem getLsbD_three_bits (a b c : Bool) :
    (bit a ++ bit b ++ bit c).getLsbD 0 = c ∧ (bit a ++ bit b ++ bit c).getLsbD 1 = b ∧
      (bit a ++ bit b ++ bit c).getLsbD 2 = a := by
  revert a b c
  decide

/-- The bits of a control word of four bits, from the lowest up. -/
theorem getLsbD_four_bits (a b c d : Bool) :
    (bit a ++ bit b ++ bit c ++ bit d).getLsbD 0 = d ∧ (bit a ++ bit b ++ bit c ++ bit d).getLsbD 1 = c ∧
      (bit a ++ bit b ++ bit c ++ bit d).getLsbD 2 = b ∧ (bit a ++ bit b ++ bit c ++ bit d).getLsbD 3 = a := by
  revert a b c d
  decide

/-- The record of a TASK edge is TCTL with the frame on `send_frame` (R71). -/
theorem decodeRecord_tctl_bits (a b c : Bool) (f : Frame) :
    decodeRecord
        { word := (bit a ++ bit b ++ bit c).setWidth 104, group := BitVec.ofNat 8 PortGroup.tctl.code, frame := f.setWidth 104 } =
      .ok (if a then .send b f c else if c then .recv b f else .tickT b f) := by
  obtain ⟨h0, h1, h2⟩ := getLsbD_three_bits a b c
  rw [decodeRecord_tctl, decodeTctl_setWidth, h0, h1, h2]

/-- The record of an ISR edge is ICTL with the frame on `rx_frame` (R72). -/
theorem decodeRecord_ictl_bits (a b c d : Bool) (f : Frame) :
    decodeRecord
        { word := (bit a ++ bit b ++ bit c ++ bit d).setWidth 104, group := BitVec.ofNat 8 PortGroup.ictl.code,
          frame := f.setWidth 104 } =
      .ok (if a then .rxdep f b c d else if b then .txsvc c d else if d then .errevt c else .tickI c) := by
  obtain ⟨h0, h1, h2, h3⟩ := getLsbD_four_bits a b c d
  rw [decodeRecord_ictl, decodeIctl_setWidth, h0, h1, h2, h3]

/-! ### Decode after encode -/

theorem decodeRecord_encodeRecord (i : Instr) : decodeRecord (encodeRecord i) = .ok i := by
  cases i
  case decApp x | decAdm x | decFrame x | frameChk x | b2g x | g2b x =>
    exact decodeRecord_of_word _ x le_rfl (by rw [decodeWord, field_setWidth_self x (by decide)])
  case encApp mt mod inst => exact decodeRecord_of_word .encApp _ le_rfl (decodeWord_encApp mt mod inst 0)
  case encAdm cmd => exact decodeRecord_of_word .encAdm cmd (by decide) (decodeWord_encAdm cmd 0)
  case mkApp mt mod inst len data =>
    exact decodeRecord_of_word .mkApp _ le_rfl (decodeWord_mkApp mt mod inst len data 0)
  case mkAdm cmd rtr len data => exact decodeRecord_of_word .mkAdm _ le_rfl (decodeWord_mkAdm cmd rtr len data 0)
  case gcInc b | pop b | reset b =>
    exact decodeRecord_of_word _ (bit b) le_rfl (by rw [decodeWord, bitAt_setWidth_bit])
  case syncShift => exact decodeRecord_of_word .gctlDest (0#1) le_rfl rfl
  case push winc wdata =>
    exact (decodeRecord_of_fits .wctl (bit winc) wdata le_rfl (.inl rfl)).trans
      (by rw [decodeWord, bitAt_setWidth_bit])
  case send space frame recvReq => exact decodeRecord_tctl_bits true space recvReq frame
  case recv space frame => exact decodeRecord_tctl_bits false space true frame
  case tickT space frame => exact decodeRecord_tctl_bits false space false frame
  case rxdep frame txDone space err => exact decodeRecord_ictl_bits true txDone space err frame
  case txsvc space err => exact decodeRecord_ictl_bits false true space err 0
  case errevt space => exact decodeRecord_ictl_bits false false space true 0
  case tickI space => exact decodeRecord_ictl_bits false false space false 0

/-- Settles O55: a record is read back from its bytes, and each operation from its record. -/
theorem decodeEncode : Obligations.DecodeEncode := by
  unfold Obligations.DecodeEncode
  intro i
  rw [encode, decode_bytes, decodeRecord_encodeRecord]

/-! ### What the control words select -/

theorem taskInputs_decodeTctl (w : BitVec 3) (f : Frame) :
    taskInputs (decodeTctl (w.setWidth 104) f) = some ⟨w.getLsbD 2, w.getLsbD 1, w.getLsbD 0, f⟩ := by
  rw [decodeTctl_setWidth]
  cases w.getLsbD 2
  case true => rfl
  case false => cases w.getLsbD 0 <;> rfl

/-- The masks of R71. -/
theorem tctl_masks (w : BitVec 3) :
    (w &&& 0b100#3 = 0b100#3 → w.getLsbD 2 = true) ∧
    (w &&& 0b101#3 = 0b001#3 → w.getLsbD 2 = false ∧ w.getLsbD 0 = true) ∧
    (w &&& 0b101#3 = 0b000#3 → w.getLsbD 2 = false ∧ w.getLsbD 0 = false) := by
  revert w
  decide

/-- The masks of R72. -/
theorem ictl_masks (w : BitVec 4) :
    (w &&& 0b1000#4 = 0b1000#4 → w.getLsbD 3 = true) ∧
    (w &&& 0b1100#4 = 0b0100#4 → w.getLsbD 3 = false ∧ w.getLsbD 2 = true) ∧
    (w &&& 0b1101#4 = 0b0001#4 → w.getLsbD 3 = false ∧ w.getLsbD 2 = false ∧ w.getLsbD 0 = true) ∧
    (w &&& 0b1101#4 = 0b0000#4 → w.getLsbD 3 = false ∧ w.getLsbD 2 = false ∧ w.getLsbD 0 = false) := by
  revert w
  decide

/-- A write edge of a queue shifts the write domain's ranks, whatever is requested (R133). -/
theorem writeAlone_ranks (winc : Bool) (f : Frame) (q : Afifo) :
    (q.writeAlone winc f).wq1Rgray = q.rgray ∧ (q.writeAlone winc f).wq2Rgray = q.wq1Rgray := ⟨rfl, rfl⟩

/-- A read edge of a queue shifts the read domain's ranks, whatever is requested (R134). -/
theorem readAlone_ranks (rinc : Bool) (q : Afifo) :
    (q.readAlone rinc).rq1Wgray = q.wgray ∧ (q.readAlone rinc).rq2Wgray = q.rq1Wgray := ⟨rfl, rfl⟩

/-- Every TASK edge shifts the ranks of the TASK domain (R161). -/
theorem taskStep_ranks (inp : TaskIn) {s : State} (h : s.arstN = true) :
    (taskStep inp s).outq.wq1Rgray = s.outq.rgray ∧ (taskStep inp s).outq.wq2Rgray = s.outq.wq1Rgray ∧
      (taskStep inp s).inq.rq1Wgray = s.inq.wgray ∧ (taskStep inp s).inq.rq2Wgray = s.inq.rq1Wgray := by
  rw [taskStep_outq inp h, taskStep_inq inp h]
  exact and_assoc.1 ⟨writeAlone_ranks .., readAlone_ranks ..⟩

/-- Every ISR edge shifts the ranks of the ISR domain (R166). -/
theorem isrStep_ranks (inp : IsrIn) {s : State} (h : s.arstN = true) :
    (isrStep inp s).inq.wq1Rgray = s.inq.rgray ∧ (isrStep inp s).inq.wq2Rgray = s.inq.wq1Rgray ∧
      (isrStep inp s).outq.rq1Wgray = s.outq.wgray ∧ (isrStep inp s).outq.rq2Wgray = s.outq.rq1Wgray := by
  rw [isrStep_outq inp h, isrStep_inq inp h]
  exact and_assoc.1 ⟨writeAlone_ranks .., readAlone_ranks ..⟩

/-- Settles O56. -/
theorem tctlSelectsTheTaskEdge : Obligations.TctlSelectsTheTaskEdge := by
  unfold Obligations.TctlSelectsTheTaskEdge
  intro w f
  have hinputs := taskInputs_decodeTctl w f
  obtain ⟨hsend, hrecv, htick⟩ := tctl_masks w
  refine ⟨_, decodeRecord_tctl w f, hinputs, fun h => ?send, fun h => ?recv, fun h => ?tick,
    fun s hs => ⟨_, exec_of_taskInputs hinputs s, taskStep_ranks _ hs⟩⟩
  case send => simp only [decodeTctl_setWidth, hsend h, if_true]
  case recv => simp only [decodeTctl_setWidth, hrecv h, if_true, if_false, Bool.false_eq_true]
  case tick => simp only [decodeTctl_setWidth, htick h, if_false, Bool.false_eq_true]

/-- The inputs of the ISR edge that an ICTL word selects: its four bits, and the frame where `rx_valid` lets it in (R167). -/
def ictlInputs (w : BitVec 4) (f : Frame) : IsrIn :=
  ⟨w.getLsbD 3, w.getLsbD 2, w.getLsbD 1, w.getLsbD 0, if w.getLsbD 3 then f else 0⟩

theorem isrInputs_decodeIctl (w : BitVec 4) (f : Frame) :
    isrInputs (decodeIctl (w.setWidth 104) f) = some (ictlInputs w f) := by
  rw [decodeIctl_setWidth, ictlInputs]
  cases w.getLsbD 3
  case true => rfl
  case false =>
    cases w.getLsbD 2
    case true => rfl
    case false => cases w.getLsbD 0 <;> rfl

/-- Settles O57. -/
theorem ictlSelectsTheIsrEdge : Obligations.IctlSelectsTheIsrEdge := by
  unfold Obligations.IctlSelectsTheIsrEdge
  intro w f
  have hinputs := isrInputs_decodeIctl w f
  obtain ⟨hrxdep, htxsvc, herrevt, htick⟩ := ictl_masks w
  refine ⟨_, ictlInputs w f, decodeRecord_ictl w f, hinputs, rfl, rfl, rfl, rfl, fun h => if_pos h, fun h => ?rxdep,
    fun h => ?txsvc, fun h => ?errevt, fun h => ?tick, fun s hs => ⟨_, exec_of_isrInputs hinputs s, isrStep_ranks _ hs⟩⟩
  case rxdep => simp only [decodeIctl_setWidth, hrxdep h, if_true]
  case txsvc => simp only [decodeIctl_setWidth, htxsvc h, if_true, if_false, Bool.false_eq_true]
  case errevt => simp only [decodeIctl_setWidth, herrevt h, if_true, if_false, Bool.false_eq_true]
  case tick => simp only [decodeIctl_setWidth, htick h, if_false, Bool.false_eq_true]

/-- Settles O58: the decoder is run on each record. -/
theorem writtenOutWordsDecode : Obligations.WrittenOutWordsDecode := by
  unfold Obligations.WrittenOutWordsDecode
  refine ⟨?encApp, ?encAdm, ?send, ?txsvc, ?reset⟩ <;> decide

/-! ### The frame word of a script frame (R76) -/

section
variable (len : BitVec 4) (rtr ext : Bool) (id : Ident) (data : BitVec 64)

@[simp] theorem frameLen_mkFrame : frameLen (mkFrame len rtr ext id data) = len := by
  simp (disch := decide) only [frameLen, mkFrame, BitVec.extractLsb'_append_eq_of_le, BitVec.extractLsb'_eq_self,
    Nat.reduceSub, -Nat.reduceAdd]

@[simp] theorem frameExt_mkFrame : frameExt (mkFrame len rtr ext id data) = ext := by
  have hext : (bit ext == 1#1) = ext := by cases ext <;> rfl
  simp (disch := decide) only [frameExt, mkFrame, BitVec.getLsbD_eq_extractLsb', BitVec.extractLsb'_append_eq_of_le,
    BitVec.extractLsb'_append_eq_of_add_le, BitVec.extractLsb'_eq_self, Nat.reduceSub, hext, -Nat.reduceAdd]

theorem frameByte_mkFrame {k : Nat} (hk : k < 8) :
    frameByte (mkFrame len rtr ext id data) k = data.extractLsb' (8 * k) 8 :=
  BitVec.extractLsb'_append_eq_of_add_le (by omega)

end

/-- Byte `k` of the number that the bytes spell is the byte at `k`, and 0 above them. -/
theorem bytesToNat_div_pow_mod (bs : List Byte) : ∀ k, bytesToNat bs / 256 ^ k % 256 = (bs.getD k 0).toNat := by
  induction bs with
  | nil => intro k; simp [bytesToNat]
  | cons b bs ih =>
    have hb : b.toNat < 256 := b.isLt
    intro k
    cases k with
    | zero => simpa [bytesToNat] using hb
    | succ k =>
      have hdiv : (b.toNat + 256 * bytesToNat bs) / 256 = bytesToNat bs := by omega
      rw [bytesToNat, pow_succ', ← Nat.div_div_eq_div_mul, hdiv, ih, List.getD_cons_succ]

theorem packData_byte (bs : List Byte) {k : Nat} (hk : k < 8) : (packData bs).extractLsb' (8 * k) 8 = bs.getD k 0 := by
  refine BitVec.eq_of_toNat_eq ?_
  have hsplit : 2 ^ 64 = 2 ^ (8 * k) * 2 ^ (64 - 8 * k) := by
    rw [← pow_add]
    congr 1
    omega
  have hlow : 2 ^ 8 ∣ 2 ^ (64 - 8 * k) := pow_dvd_pow 2 (by omega)
  rw [packData, BitVec.extractLsb'_toNat, BitVec.toNat_ofNat, Nat.shiftRight_eq_div_pow, hsplit,
    Nat.mod_mul_right_div_self, Nat.mod_mod_of_dvd _ hlow, pow_mul]
  exact bytesToNat_div_pow_mod bs k

/-- A frame word whose `len` and `data` are those of a list of at most 8 bytes. -/
theorem mkFrame_carries_bytes (rtr ext : Bool) (id : Ident) {bs : List Byte} (h : bs.length ≤ 8) :
    (frameLen (mkFrame (BitVec.ofNat 4 bs.length) rtr ext id (packData bs))).toNat = bs.length ∧
      ∀ k, k < 8 → frameByte (mkFrame (BitVec.ofNat 4 bs.length) rtr ext id (packData bs)) k = bs.getD k 0 := by
  refine ⟨?len, fun k hk => ?byte⟩
  case len =>
    rw [frameLen_mkFrame, BitVec.toNat_ofNat]
    omega
  case byte => rw [frameByte_mkFrame _ _ _ _ _ hk, packData_byte bs hk]

/-- Settles O59: both kinds are `mkFrame` of the number of bytes, the kind and the packed bytes. -/
theorem scriptFrameCarriesItsBytes : Obligations.ScriptFrameCarriesItsBytes := by
  unfold Obligations.ScriptFrameCarriesItsBytes
  intro sf data hwf hsf
  obtain ⟨mt, mod, inst, rfl⟩ | ⟨cmd, rtr, rfl⟩ := hsf
  case inl =>
    obtain ⟨hlen, hbyte⟩ := mkFrame_carries_bytes false true (packAppId mt mod inst) (of_decide_eq_true hwf)
    exact ⟨hlen, hbyte, iff_of_true (frameExt_mkFrame ..) ⟨mt, mod, inst, rfl⟩⟩
  case inr =>
    obtain ⟨hlen, hbyte⟩ := mkFrame_carries_bytes rtr false (packAdmId cmd) (of_decide_eq_true hwf)
    have hext : frameExt (scriptFrameWord (.adm cmd rtr data)) = false := frameExt_mkFrame ..
    exact ⟨hlen, hbyte, iff_of_false (by simp [hext]) (by simp)⟩

/-! ### SETTLE (R77) -/

/-- The queue after two edges of each domain without a request: every rank holds the gray register it follows. -/
def Afifo.settled (q : Afifo) : Afifo :=
  { q with wq1Rgray := q.rgray, wq2Rgray := q.rgray, rq1Wgray := q.wgray, rq2Wgray := q.wgray }

theorem settled_of_writes_first (q : Afifo) :
    (((q.writeAlone false 0).writeAlone false 0).readAlone false).readAlone false = q.settled := by
  simp only [writeAlone_false, readAlone_false, Afifo.settled]

theorem settled_of_reads_first (q : Afifo) :
    (((q.readAlone false).readAlone false).writeAlone false 0).writeAlone false 0 = q.settled := by
  simp only [writeAlone_false, readAlone_false, Afifo.settled]

theorem wcount_settled {q : Afifo} (h : q.rgray = b2g q.rbin) : q.settled.wcount = q.settled.occ := by
  simp only [Afifo.wcount, Afifo.occ, Afifo.settled, h, g2b_b2g_ptr]

theorem rcount_settled {q : Afifo} (h : q.wgray = b2g q.wbin) : q.settled.rcount = q.settled.occ := by
  simp only [Afifo.rcount, Afifo.occ, Afifo.settled, h, g2b_b2g_ptr]

/-- Two idle edges of the ISR domain and then two of the TASK domain settle both queues. -/
theorem execAll_settle {s : State} (hs : s.arstN = true) :
    ∃ t, execAll [.tickI false, .tickI false, .tickT false 0, .tickT false 0] s = .next t ∧
      t.inq = s.inq.settled ∧ t.outq = s.outq.settled := by
  simp only [execAll, exec_tickT, exec_tickI, Host.Outcome.next.injEq, exists_eq_left', taskStep_inq, taskStep_outq,
    isrStep_inq, isrStep_outq, taskStep_arstN, isrStep_arstN, hs, rxPass_of_not_rxValid, txPop_without_space,
    sendStatus_beq_queued_of_no_request]
  exact ⟨settled_of_writes_first s.inq, settled_of_reads_first s.outq⟩

/-- Settles O53: after SETTLE both queues are `Afifo.settled`, which differs from the queue before in its ranks only. -/
theorem settleBringsTheViewsUpToDate : Obligations.SettleBringsTheViewsUpToDate := by
  unfold Obligations.SettleBringsTheViewsUpToDate
  intro s hinv hs
  obtain ⟨⟨⟨hiw, hir⟩, -⟩, ⟨⟨how, hor⟩, -⟩, -⟩ := hinv
  obtain ⟨t, ht, hinq, houtq⟩ := execAll_settle hs
  refine ⟨t, ht, ?_⟩
  rw [hinq, houtq]
  exact ⟨wcount_settled hir, rcount_settled hiw, wcount_settled hor, rcount_settled how,
    ⟨rfl, rfl, rfl, rfl⟩, ⟨rfl, rfl, rfl, rfl⟩, rfl, rfl, rfl, rfl⟩

end Sys2Proof.Machine

/-! # Proofs of the statements of spec/40_codec.md: identifiers, frame words, classification -/

namespace Sys2Proof.Machine

/-! ### What each operation of the CODEC does -/

section
variable (s : State)

theorem exec_encApp (mt : BitVec 12) (mod : BitVec 8) (inst : BitVec 4) :
    exec (.encApp mt mod inst) s = .next (setCodec s { s.ports.codec with encId := packAppId mt mod inst }) := rfl

theorem exec_decApp (id : Ident) :
    exec (.decApp id) s =
      .next (setCodec s
        { s.ports.codec with
          decMt := appIdMt id, decMod := appIdMod id, decInst := appIdInst id, decResvNz := appIdResvNz id }) := rfl

theorem exec_encAdm (cmd : AdmCmd) :
    exec (.encAdm cmd) s = .next (setCodec s { s.ports.codec with admIdOut := packAdmId cmd }) := rfl

theorem exec_decAdm (id : Ident) :
    exec (.decAdm id) s = .next (setCodec s { s.ports.codec with admCmdOut := admIdCmd id }) := rfl

theorem exec_decFrame (f : Frame) :
    exec (.decFrame f) s = .next (setCodec s (classifyFrame f s.ports.codec)) := rfl

theorem exec_mkApp (mt : BitVec 12) (mod : BitVec 8) (inst len : BitVec 4) (data : BitVec 64) :
    exec (.mkApp mt mod inst len data) s =
      .next (setCodec s { s.ports.codec with mkAppFrame := appFrame mt mod inst len data }) := rfl

theorem exec_mkAdm (cmd : AdmCmd) (rtr : Bool) (len : BitVec 4) (data : BitVec 64) :
    exec (.mkAdm cmd rtr len data) s =
      .next (setCodec s { s.ports.codec with mkAdmFrame := admFrame cmd rtr len data }) := rfl

theorem exec_frameChk (f : Frame) :
    exec (.frameChk f) s = .next (setCodec s { s.ports.codec with frameOk := frameOk f }) := rfl

end

/-! ### The application identifier as a concatenation of five fields (R65, R67) -/

/-- The 29 bits of an identifier, with the reserved bits 28 (`top`) and 15:12 (`mid`) beside the three fields. -/
def appIdLayout (top : BitVec 1) (mt : BitVec 12) (mid : BitVec 4) (mod : BitVec 8) (inst : BitVec 4) : Ident :=
  top ++ mt ++ mid ++ mod ++ inst

/-- Every identifier is the concatenation of its own slices. -/
theorem exists_appIdLayout (id : Ident) : ∃ top mt mid mod inst, id = appIdLayout top mt mid mod inst := by
  refine ⟨id.extractLsb' 28 1, id.extractLsb' 16 12, id.extractLsb' 12 4, id.extractLsb' 4 8, id.extractLsb' 0 4, ?_⟩
  simp (disch := rfl) only [appIdLayout, BitVec.extractLsb'_append_extractLsb'_eq_extractLsb']
  exact BitVec.extractLsb'_eq_self.symm

/-- The normative OR of R65 and R90 is the concatenation with every reserved bit 0. -/
theorem packAppId_eq_layout (mt : BitVec 12) (mod : BitVec 8) (inst : BitVec 4) :
    packAppId mt mod inst = appIdLayout 0 mt 0 mod inst := by
  have hor : appIdLayout 0 mt 0 mod inst =
      ((0#1 ++ mt).setWidth 29 <<< 16) ||| ((0#4).setWidth 29 <<< 12) ||| (mod.setWidth 29 <<< 4) ||| inst.setWidth 29 :=
    (BitVec.setWidth_eq _).symm.trans BitVec.setWidth_append_append_append_eq_shiftLeft_setWidth_or
  have hmt : (0#1 ++ mt).setWidth 29 = mt.setWidth 29 := by
    rw [show 0#1 ++ mt = mt.setWidth 13 from (BitVec.setWidth_eq_append (by decide)).symm]
    exact BitVec.setWidth_setWidth (by decide)
  have hmid : (0#4).setWidth 29 <<< 12 = 0#29 := rfl
  rw [hor, hmt, hmid, BitVec.or_zero, packAppId]

section
variable (top : BitVec 1) (mt : BitVec 12) (mid : BitVec 4) (mod : BitVec 8) (inst : BitVec 4)

@[simp] theorem appIdMt_layout : appIdMt (appIdLayout top mt mid mod inst) = mt := by
  simp (disch := decide) only [appIdMt, appIdLayout, BitVec.extractLsb'_append_eq_of_le,
    BitVec.extractLsb'_append_eq_of_add_le, BitVec.extractLsb'_eq_self, Nat.reduceSub, -Nat.reduceAdd]

@[simp] theorem appIdMod_layout : appIdMod (appIdLayout top mt mid mod inst) = mod := by
  simp (disch := decide) only [appIdMod, appIdLayout, BitVec.extractLsb'_append_eq_of_le,
    BitVec.extractLsb'_append_eq_of_add_le, BitVec.extractLsb'_eq_self, Nat.reduceSub, -Nat.reduceAdd]

@[simp] theorem appIdInst_layout : appIdInst (appIdLayout top mt mid mod inst) = inst :=
  BitVec.extractLsb'_append_eq_right

theorem appIdResvNz_layout : appIdResvNz (appIdLayout top mt mid mod inst) = (top != 0 || mid != 0) := by
  have hbits : appIdResvNz (appIdLayout top mt mid mod inst) =
      (top.getLsbD 0 || mid.getLsbD 3 || mid.getLsbD 2 || mid.getLsbD 1 || mid.getLsbD 0) := by
    simp only [appIdResvNz, appIdLayout, BitVec.getLsbD_append, Nat.reduceLT, Nat.reduceSub, if_true, if_false]
  have hor : ∀ (a : BitVec 1) (b : BitVec 4),
      (a.getLsbD 0 || b.getLsbD 3 || b.getLsbD 2 || b.getLsbD 1 || b.getLsbD 0) = (a != 0 || b != 0) := by decide
  rw [hbits, hor]

theorem appIdLayout_and (top' : BitVec 1) (mt' : BitVec 12) (mid' : BitVec 4) (mod' : BitVec 8) (inst' : BitVec 4) :
    appIdLayout top mt mid mod inst &&& appIdLayout top' mt' mid' mod' inst' =
      appIdLayout (top &&& top') (mt &&& mt') (mid &&& mid') (mod &&& mod') (inst &&& inst') :=
  BitVec.and_append.trans (by simp only [BitVec.and_append]; rfl)

/-- Masking with the bits of the three fields clears the reserved bits (R99). -/
theorem appIdLayout_and_fields :
    appIdLayout top mt mid mod inst &&& 0x0FFF0FFF#29 = appIdLayout 0 mt 0 mod inst := by
  have hmask : 0x0FFF0FFF#29 = appIdLayout 0 (.allOnes 12) 0 (.allOnes 8) (.allOnes 4) := rfl
  rw [hmask, appIdLayout_and]
  simp only [BitVec.and_allOnes, BitVec.ofNat_eq_ofNat, BitVec.and_zero]

/-- Masking with the five reserved bits leaves them alone (R191). -/
theorem appIdLayout_and_reserved :
    appIdLayout top mt mid mod inst &&& 0x1000F000#29 = appIdLayout top 0 mid 0 0 := by
  have hmask : 0x1000F000#29 = appIdLayout (.allOnes 1) 0 (.allOnes 4) 0 0 := rfl
  rw [hmask, appIdLayout_and]
  simp only [BitVec.and_allOnes, BitVec.ofNat_eq_ofNat, BitVec.and_zero]

end

/-- `dec_resv_nz` says whether the identifier meets the mask of R191. -/
theorem appIdResvNz_eq_mask (id : Ident) : appIdResvNz id = (id &&& 0x1000F000#29 != 0) := by
  obtain ⟨top, mt, mid, mod, inst, rfl⟩ := exists_appIdLayout id
  have hmasked : ∀ (a : BitVec 1) (b : BitVec 4), (a != 0 || b != 0) = (appIdLayout a 0 b 0 0 != 0) := by decide
  rw [appIdLayout_and_reserved, appIdResvNz_layout, hmasked]

/-! ### Packing and unpacking an application identifier (R98, R99) -/

section
variable (mt : BitVec 12) (mod : BitVec 8) (inst : BitVec 4)

@[simp] theorem appIdMt_packAppId : appIdMt (packAppId mt mod inst) = mt := by
  rw [packAppId_eq_layout, appIdMt_layout]

@[simp] theorem appIdMod_packAppId : appIdMod (packAppId mt mod inst) = mod := by
  rw [packAppId_eq_layout, appIdMod_layout]

@[simp] theorem appIdInst_packAppId : appIdInst (packAppId mt mod inst) = inst := by
  rw [packAppId_eq_layout, appIdInst_layout]

@[simp] theorem appIdResvNz_packAppId : appIdResvNz (packAppId mt mod inst) = false := by
  rw [packAppId_eq_layout, appIdResvNz_layout]
  rfl

end

theorem packAppId_inj {mt mt' : BitVec 12} {mod mod' : BitVec 8} {inst inst' : BitVec 4}
    (h : packAppId mt mod inst = packAppId mt' mod' inst') : mt = mt' ∧ mod = mod' ∧ inst = inst' :=
  ⟨by simpa using congrArg appIdMt h, by simpa using congrArg appIdMod h, by simpa using congrArg appIdInst h⟩

theorem packAppId_slices (id : Ident) :
    packAppId (appIdMt id) (appIdMod id) (appIdInst id) = id &&& 0x0FFF0FFF#29 := by
  obtain ⟨top, mt, mid, mod, inst, rfl⟩ := exists_appIdLayout id
  rw [appIdLayout_and_fields, packAppId_eq_layout, appIdMt_layout, appIdMod_layout, appIdInst_layout]

theorem packAppId_slices_eq_self_iff (id : Ident) :
    packAppId (appIdMt id) (appIdMod id) (appIdInst id) = id ↔ appIdResvNz id = false := by
  constructor
  · intro h
    rw [← h, appIdResvNz_packAppId]
  · intro h
    obtain ⟨top, mt, mid, mod, inst, rfl⟩ := exists_appIdLayout id
    obtain ⟨rfl, rfl⟩ : top = 0 ∧ mid = 0 := by simpa [appIdResvNz_layout] using h
    rw [packAppId_eq_layout, appIdMt_layout, appIdMod_layout, appIdInst_layout]

/-! ### The admin identifier (R92, R93) -/

theorem packAdmId_eq_append (cmd : AdmCmd) : packAdmId cmd = (0#18 ++ cmd : BitVec 29) :=
  BitVec.setWidth_eq_append (by decide)

@[simp] theorem admIdCmd_packAdmId (cmd : AdmCmd) : admIdCmd (packAdmId cmd) = cmd := by
  rw [packAdmId_eq_append]
  exact BitVec.extractLsb'_append_eq_right

theorem packAdmId_high_bits (cmd : AdmCmd) : (packAdmId cmd).extractLsb' 11 18 = 0 := by
  rw [packAdmId_eq_append]
  exact BitVec.extractLsb'_append_eq_left

theorem packAdmId_admIdCmd_eq_self_iff (id : Ident) : packAdmId (admIdCmd id) = id ↔ id.extractLsb' 11 18 = 0 := by
  constructor
  · intro h
    rw [← h, packAdmId_high_bits]
  · intro h
    have hsplit : (id.extractLsb' 11 18 ++ admIdCmd id : BitVec 29) = id := BitVec.extractLsb'_append_extractLsb'
    rw [h] at hsplit
    exact (packAdmId_eq_append _).trans hsplit

/-! ### The identifier inside a frame word (R62) -/

theorem extractLsb'_frameId (f : Frame) {start len : Nat} (h : start + len ≤ 29) :
    (frameId f).extractLsb' start len = f.extractLsb' (64 + start) len := by
  ext i hi
  have hlt : start + i < 29 := by omega
  simp [frameId, hlt, Nat.add_assoc]

theorem getLsbD_frameId (f : Frame) {i : Nat} (h : i < 29) : (frameId f).getLsbD i = f.getLsbD (64 + i) := by
  simp [frameId, h]

@[simp] theorem frameId_mkFrame (len : BitVec 4) (rtr ext : Bool) (id : Ident) (data : BitVec 64) :
    frameId (mkFrame len rtr ext id data) = id := by
  simp (disch := decide) only [frameId, mkFrame, BitVec.extractLsb'_append_eq_of_le,
    BitVec.extractLsb'_append_eq_of_add_le, BitVec.extractLsb'_eq_self, Nat.reduceSub, -Nat.reduceAdd]

/-! ### The two paths of DEC_FRAME, and FRAME_CHK (R94, R97) -/

theorem classifyFrame_of_ext {f : Frame} (h : frameExt f = true) (p : CodecPorts) :
    classifyFrame f p =
      { p with
        clsIsApp := true, clsMt := appIdMt (frameId f), clsMod := appIdMod (frameId f),
        clsInst := appIdInst (frameId f), clsResvNz := appIdResvNz (frameId f), clsCmd := 0 } :=
  if_pos h

theorem classifyFrame_of_not_ext {f : Frame} (h : frameExt f = false) (p : CodecPorts) :
    classifyFrame f p =
      { p with
        clsIsApp := false, clsMt := 0, clsMod := 0, clsInst := 0, clsResvNz := false,
        clsCmd := admIdCmd (frameId f) } :=
  if_neg (Bool.eq_false_iff.1 h)

theorem frameOk_eq (f : Frame) :
    frameOk f = decide ((frameLen f).toNat ≤ 8 ∧ (frameExt f = true ∨ (frameId f).extractLsb' 11 18 = 0#18)) := by
  rw [Bool.eq_iff_iff]
  simp [frameOk, BitVec.le_def]

/-- What DEC_FRAME gives of a frame that MK_APP built (R239). -/
theorem classifyFrame_appFrame (mt : BitVec 12) (mod : BitVec 8) (inst len : BitVec 4) (data : BitVec 64)
    (p : CodecPorts) :
    classifyFrame (appFrame mt mod inst len data) p =
      { p with clsIsApp := true, clsMt := mt, clsMod := mod, clsInst := inst, clsResvNz := false, clsCmd := 0 } := by
  rw [appFrame, classifyFrame_of_ext (frameExt_mkFrame ..)]
  simp

/-- What DEC_FRAME gives of a frame that MK_ADM built (R239). -/
theorem classifyFrame_admFrame (cmd : AdmCmd) (rtr : Bool) (len : BitVec 4) (data : BitVec 64) (p : CodecPorts) :
    classifyFrame (admFrame cmd rtr len data) p =
      { p with clsIsApp := false, clsMt := 0, clsMod := 0, clsInst := 0, clsResvNz := false, clsCmd := cmd } := by
  rw [admFrame, classifyFrame_of_not_ext (frameExt_mkFrame ..)]
  simp

theorem frameOk_appFrame (mt : BitVec 12) (mod : BitVec 8) (inst len : BitVec 4) (data : BitVec 64) :
    frameOk (appFrame mt mod inst len data) = decide (len.toNat ≤ 8) := by
  simp [frameOk_eq, appFrame]

theorem frameOk_admFrame (cmd : AdmCmd) (rtr : Bool) (len : BitVec 4) (data : BitVec 64) :
    frameOk (admFrame cmd rtr len data) = decide (len.toNat ≤ 8) := by
  simp [frameOk_eq, admFrame, packAdmId_high_bits]

/-! ### The statements of the identifiers -/

/-- Settles O9: unpacking inverts packing, so packing is injective. -/
theorem decAppAfterEncApp : Obligations.DecAppAfterEncApp := by
  unfold Obligations.DecAppAfterEncApp
  constructor
  · intro mt mod inst s
    refine ⟨_, _, exec_encApp s mt mod inst, exec_decApp _ _, ?_⟩
    exact ⟨appIdMt_packAppId .., appIdMod_packAppId .., appIdInst_packAppId .., appIdResvNz_packAppId ..⟩
  · intro mt mt' mod mod' inst inst' s t t' ht ht' hid
    obtain rfl := Host.Outcome.next.inj ht
    obtain rfl := Host.Outcome.next.inj ht'
    exact packAppId_inj hid

/-- Settles O10: packing the slices masks the reserved bits, and keeps the identifier exactly when they are all 0. -/
theorem encAppAfterDecApp : Obligations.EncAppAfterDecApp := by
  unfold Obligations.EncAppAfterDecApp
  intro id s
  exact ⟨_, _, exec_decApp s id, exec_encApp _ _ _ _, packAppId_slices id, packAppId_slices_eq_self_iff id⟩

/-- Settles O11: both builders are `mkFrame` of a packed identifier, which the path that `ext` selects unpacks. -/
theorem builtFramesDecodeBack : Obligations.BuiltFramesDecodeBack := by
  unfold Obligations.BuiltFramesDecodeBack
  constructor
  · intro mt mod inst len data s
    refine ⟨_, _, _, exec_mkApp s mt mod inst len data, exec_decFrame _ _, exec_frameChk _ _, ?_⟩
    simp [classifyFrame_appFrame, frameOk_appFrame]
  · intro cmd rtr len data s
    refine ⟨_, _, _, exec_mkAdm s cmd rtr len data, exec_decFrame _ _, exec_frameChk _ _, ?_⟩
    simp [classifyFrame_admFrame, frameOk_admFrame]

/-- Settles O1: the OR of the shifted fields is the concatenation with the reserved bits 0. -/
theorem encAppPacksTheTriple : Obligations.EncAppPacksTheTriple := by
  unfold Obligations.EncAppPacksTheTriple
  intro mt mod inst s
  have hcat : packAppId mt mod inst = (0#1 ++ mt ++ 0#4 ++ mod ++ inst : BitVec 29) := packAppId_eq_layout mt mod inst
  refine ⟨?exec, hcat.symm⟩
  rw [exec_encApp, hcat]
  rfl

/-- Settles O2: the mask of R191 keeps the five reserved bits of the identifier and nothing else. -/
theorem decAppSlicesTheIdentifier : Obligations.DecAppSlicesTheIdentifier := by
  unfold Obligations.DecAppSlicesTheIdentifier
  intro id s
  exact ⟨exec_decApp s id, appIdResvNz_eq_mask id⟩

/-- Settles O3: zero extension is concatenation with 18 zero bits. -/
theorem encAdmZeroExtends : Obligations.EncAdmZeroExtends := by
  unfold Obligations.EncAdmZeroExtends
  intro cmd s
  rw [exec_encAdm, packAdmId_eq_append]
  rfl

/-- Settles O4: an identifier is its bits 28:11 followed by its command, and packing puts 0 above the command. -/
theorem decAdmTakesTheLowBits : Obligations.DecAdmTakesTheLowBits := by
  unfold Obligations.DecAdmTakesTheLowBits
  intro id s
  refine ⟨exec_decAdm s id, fun cmd t u ht hu => ?decEnc, fun t u ht hu => ?encDec⟩
  case decEnc =>
    obtain rfl := Host.Outcome.next.inj ht
    obtain rfl := Host.Outcome.next.inj hu
    exact admIdCmd_packAdmId cmd
  case encDec =>
    obtain rfl := Host.Outcome.next.inj ht
    obtain rfl := Host.Outcome.next.inj hu
    exact packAdmId_admIdCmd_eq_self_iff id

/-! ### The statements of the frame words -/

/-- Settles O5: each path reads slices of the identifier, which are slices of the frame word 64 bits up. -/
theorem decFrameTakesOnePath : Obligations.DecFrameTakesOnePath := by
  unfold Obligations.DecFrameTakesOnePath
  intro f s
  refine ⟨fun hext => ?app, fun hext => ?adm⟩
  case app =>
    rw [exec_decFrame, classifyFrame_of_ext hext]
    simp (disch := decide) only [appIdMt, appIdMod, appIdInst, appIdResvNz, extractLsb'_frameId, getLsbD_frameId]
    rfl
  case adm =>
    rw [exec_decFrame, classifyFrame_of_not_ext hext]
    simp (disch := decide) only [admIdCmd, extractLsb'_frameId]
    rfl

/-- Settles O6: the frame word is `mkFrame` of the packed application identifier. -/
theorem mkAppBuildsTheFrameWord : Obligations.MkAppBuildsTheFrameWord := by
  unfold Obligations.MkAppBuildsTheFrameWord
  intro mt mod inst len data s
  rw [exec_mkApp, appFrame, packAppId_eq_layout]
  rfl

/-- Settles O7: the frame word is `mkFrame` of the packed admin identifier. -/
theorem mkAdmBuildsTheFrameWord : Obligations.MkAdmBuildsTheFrameWord := by
  unfold Obligations.MkAdmBuildsTheFrameWord
  intro cmd rtr len data s
  rw [exec_mkAdm, admFrame, packAdmId_eq_append]
  rfl

/-- Settles O8: `frameOk` is the invariant of R97 in its fields, and bits 28:11 of the identifier are bits 92:75 of the word. -/
theorem frameChkIsTheInvariant : Obligations.FrameChkIsTheInvariant := by
  unfold Obligations.FrameChkIsTheInvariant
  intro f s
  rw [exec_frameChk, frameOk_eq, extractLsb'_frameId f (by decide)]
  rfl

/-! ### Classification of raw codes (R7, R102) -/

theorem codeName_of_mem {ν : Type} {w : Nat} (unknown : ν) {rows : List (ν × BitVec w)} {n : ν} {c : BitVec w}
    (h : (rows.map Prod.snd).Nodup) (hmem : (n, c) ∈ rows) : codeName unknown rows c = n := by
  induction rows with
  | nil => cases hmem
  | cons r rest ih =>
    obtain ⟨hr, hrest⟩ := List.nodup_cons.1 h
    obtain rfl | hmem := List.mem_cons.1 hmem
    · exact if_pos rfl
    · have hne : r.2 ≠ c := fun hc => hr (hc ▸ List.mem_map_of_mem (f := Prod.snd) hmem)
      exact (if_neg hne).trans (ih hrest hmem)

theorem codeName_of_not_mem {ν : Type} {w : Nat} (unknown : ν) {rows : List (ν × BitVec w)} {c : BitVec w}
    (h : ∀ n, (n, c) ∉ rows) : codeName unknown rows c = unknown := by
  induction rows with
  | nil => rfl
  | cons r rest ih =>
    have hne : r.2 ≠ c := fun hc => h r.1 (hc ▸ List.mem_cons_self)
    exact (if_neg hne).trans (ih fun n hn => h n (List.mem_cons_of_mem r hn))

/-- The value of a name classifies as that name. -/
theorem classify_of_codeOf {ν : Type} [DecidableEq ν] {w : Nat} {t : CodeTable ν w} (h : t.legal) {n : ν} {c : BitVec w}
    (hn : codeOf n t.rows = some c) : classify t c = (n, c) := by
  obtain ⟨hnames, hcodes⟩ := h
  rw [classify, codeName_of_mem t.unknown hcodes ((codeOf_eq_some hnames).1 hn)]

/-- Different names have different values. -/
theorem codeOf_inj {ν α : Type} [DecidableEq ν] {rows : List (ν × α)} (h : rowsLegal rows) {n m : ν} {v : α}
    (hn : codeOf n rows = some v) (hm : codeOf m rows = some v) : n = m := by
  obtain ⟨hnames, hvalues⟩ := h
  have hrow := List.inj_on_of_nodup_map hvalues ((codeOf_eq_some hnames).1 hn) ((codeOf_eq_some hnames).1 hm) rfl
  exact congrArg Prod.fst hrow

/-- Settles O12: a legal table lists a code once and a name once, and DEC_FRAME gives back the codes MK_APP was given. -/
theorem classificationIsTotalAndKeepsTheCode : Obligations.ClassificationIsTotalAndKeepsTheCode := by
  unfold Obligations.ClassificationIsTotalAndKeepsTheCode
  refine ⟨?total, ?values, ?distinct, ?classes⟩
  case total =>
    intro ν w t ht c
    obtain ⟨-, hcodes⟩ := ht
    exact ⟨rfl, fun n hn => codeName_of_mem t.unknown hcodes hn, fun h => codeName_of_not_mem t.unknown h⟩
  case values =>
    intro e
    exact ⟨rfl, rfl, rfl, rfl, rfl, rfl, rfl, rfl, rfl, rfl, rfl, rfl, rfl, rfl, rfl⟩
  case distinct =>
    intro e he
    obtain ⟨hmod, hinst, hmsg, hadm, hcomponent⟩ := he
    exact ⟨fun _ _ _ => codeOf_inj hmod, fun _ _ _ => codeOf_inj hinst, fun _ _ _ => codeOf_inj hmsg,
      fun _ _ _ => codeOf_inj hadm, fun _ _ _ => codeOf_inj hcomponent⟩
  case classes =>
    intro e nt nm ni mt mod inst len data s he hmt hmod hinst
    obtain ⟨hmodLegal, hinstLegal, hmsgLegal, -, -⟩ := he
    have hclassMt : classMt e.msg.table mt = (nt, mt) := classify_of_codeOf hmsgLegal hmt
    have hclassMod : classMod e.mod.table mod = (nm, mod) := classify_of_codeOf hmodLegal hmod
    have hclassInst : classInst e.inst.table inst = (ni, inst) := classify_of_codeOf hinstLegal hinst
    refine ⟨hclassMt, hclassMod, hclassInst, _, _, exec_mkApp s mt mod inst len data, exec_decFrame _ _, ?_⟩
    rw [setCodec_ports_codec, setCodec_ports_codec, classifyFrame_appFrame]
    exact ⟨hclassMt, hclassMod, hclassInst⟩

end Sys2Proof.Machine

/-! # Proofs of the statements of spec/41_gray_sync.md: the gray code at every width, the counter and the synchroniser -/

namespace Sys2Proof.Machine

/-! ### The gray code, bit by bit and as a bijection (R110, R111) -/

theorem getLsbD_b2g {n : Nat} (b : BitVec n) (k : Nat) : (b2g b).getLsbD k = (b.getLsbD (k + 1) ^^ b.getLsbD k) := by
  rw [b2g, BitVec.getLsbD_xor, BitVec.getLsbD_ushiftRight, Nat.add_comm 1 k, Bool.xor_comm]

theorem b2g_xor {n : Nat} (a b : BitVec n) : b2g (a ^^^ b) = b2g a ^^^ b2g b := by
  simp only [b2g, BitVec.ushiftRight_xor_distrib]
  ac_rfl

/-- A running exclusive or starts with its own bit and goes on with the one that starts a bit higher. -/
theorem getLsbD_grayFold_succ {n : Nat} (g : BitVec n) (m k : Nat) :
    (grayFold g (m + 1)).getLsbD k = (g.getLsbD k ^^ (grayFold g m).getLsbD (k + 1)) := by
  induction m with
  | zero => simp [grayFold, Nat.add_comm]
  | succ m ih =>
    rw [grayFold, BitVec.getLsbD_xor, ih, grayFold, BitVec.getLsbD_xor, Bool.xor_assoc]
    simp only [BitVec.getLsbD_ushiftRight, Nat.add_comm, Nat.add_left_comm]

/-- Once every bit is shifted out the running exclusive or stands still, at `g2b`. -/
theorem grayFold_eq_g2b {n : Nat} (g : BitVec n) : grayFold g (n - 1 + 1) = g2b g := by
  rw [grayFold, BitVec.ushiftRight_eq_zero (by omega), BitVec.xor_zero, g2b]

theorem getLsbD_g2b {n : Nat} (g : BitVec n) (k : Nat) :
    (g2b g).getLsbD k = (g.getLsbD k ^^ (g2b g).getLsbD (k + 1)) := by
  rw [← grayFold_eq_g2b, getLsbD_grayFold_succ, grayFold_eq_g2b, g2b]

/-- Over a gray code the running exclusive or telescopes to its two ends. -/
theorem grayFold_b2g {n : Nat} (b : BitVec n) (m : Nat) : grayFold (b2g b) m = b ^^^ (b >>> (m + 1)) := by
  induction m with
  | zero => rfl
  | succ m ih =>
    calc grayFold (b2g b) (m + 1)
        = b ^^^ (b >>> (m + 1)) ^^^ ((b ^^^ (b >>> 1)) >>> (m + 1)) := by rw [grayFold, ih, b2g]
      _ = b ^^^ ((b >>> (m + 1)) ^^^ (b >>> (m + 1))) ^^^ (b >>> (m + 1 + 1)) := by
        rw [BitVec.ushiftRight_xor_distrib, ← BitVec.shiftRight_add, Nat.add_comm 1]
        ac_rfl
      _ = b ^^^ (b >>> (m + 1 + 1)) := by rw [BitVec.xor_self, BitVec.xor_zero]

theorem g2b_b2g {n : Nat} (b : BitVec n) : g2b (b2g b) = b := by
  rw [g2b, grayFold_b2g, BitVec.ushiftRight_eq_zero (by omega), BitVec.xor_zero]

theorem b2g_g2b {n : Nat} (g : BitVec n) : b2g (g2b g) = g := by
  refine BitVec.eq_of_getLsbD_eq fun k _ => ?_
  rw [getLsbD_b2g, getLsbD_g2b g k, Bool.xor_left_comm, Bool.xor_self, Bool.xor_false]

theorem exec_b2g (b : Ptr) (s : State) : exec (.b2g b) s = .next (setGray s { s.ports.gray with gray := b2g b }) := rfl

theorem exec_g2b (g : Ptr) (s : State) : exec (.g2b g) s = .next (setGray s { s.ports.gray with bin := g2b g }) := rfl

/-- Settles O14: a bit of `g2b` is the running exclusive or from its own bit up, which over a gray code telescopes. -/
theorem g2bInvertsB2g : Obligations.G2bInvertsB2g := by
  unfold Obligations.G2bInvertsB2g
  exact ⟨fun g s => exec_g2b g s, fun n g k _ => getLsbD_g2b g k, fun n b => ⟨g2b_b2g b, b2g_g2b b⟩⟩

/-- Settles O13: bit `k` of the shifted operand is bit `k + 1` of the operand. -/
theorem b2gIsShiftAndXor : Obligations.B2gIsShiftAndXor := by
  unfold Obligations.B2gIsShiftAndXor
  exact ⟨fun b s => exec_b2g b s, fun n b k _ => getLsbD_b2g b k⟩

/-! ### The gray codes of a count and of the next one (R112)

Counting flips the bits up to the lowest 0, or all of them at the wrap. The gray code of such a run of ones from bit 0 up is its top
bit alone, and the gray code of an exclusive or is that of the gray codes. -/

/-- Counting flips the bits below which the count has only ones. -/
theorem getLsbD_xor_succ {n : Nat} (b : BitVec n) (j : Nat) :
    (b ^^^ (b + 1)).getLsbD j = decide (j < n ∧ ∀ i < j, b.getLsbD i = true) := by
  have hsucc : b + 1 = -~~~b := by
    rw [BitVec.neg_eq_not_add, BitVec.not_not]
    rfl
  rw [hsucc, BitVec.getLsbD_xor, BitVec.getLsbD_neg]
  by_cases hj : j < n
  · have hbelow : (∃ i < j, (~~~b).getLsbD i = true) ↔ ¬ ∀ i < j, b.getLsbD i = true := by
      push Not
      refine exists_congr fun i => and_congr_right fun hi => ?_
      simp [hi.trans hj]
    simp only [hbelow, decide_not, hj, decide_true, Bool.true_and, true_and]
    rw [BitVec.getLsbD_not, decide_eq_true hj, Bool.true_and, ← Bool.xor_assoc, Bool.xor_not_self, Bool.true_xor,
      Bool.not_not]
  · simp [hj, BitVec.getLsbD_of_ge _ _ (not_lt.1 hj)]

/-- Counting flips the bits from 0 up to some bit `k`: the lowest 0 of the count or, where there is none, the top bit. -/
theorem exists_getLsbD_xor_succ {n : Nat} (hn : 0 < n) (b : BitVec n) :
    ∃ k, k < n ∧ ∀ j, (b ^^^ (b + 1)).getLsbD j = decide (j ≤ k) := by
  have hex : ∃ k, k + 1 = n ∨ b.getLsbD k = false := ⟨n - 1, .inl (by omega)⟩
  have hlast : Nat.find hex ≤ n - 1 := Nat.find_min' hex (.inl (by omega))
  refine ⟨Nat.find hex, by omega, fun j => ?_⟩
  rw [getLsbD_xor_succ, decide_eq_decide]
  constructor
  · rintro ⟨hj, hones⟩
    refine not_lt.1 fun hlt => ?_
    obtain htop | hzero := Nat.find_spec hex
    · omega
    · simp [hones _ hlt] at hzero
  · intro hj
    refine ⟨by omega, fun i hi => ?_⟩
    have hbefore := Nat.find_min hex (hi.trans_le hj)
    push Not at hbefore
    simpa using hbefore.2

theorem exists_getLsbD_b2g_xor_b2g_succ {n : Nat} (hn : 0 < n) (b : BitVec n) :
    ∃ k, k < n ∧ ∀ j, (b2g b ^^^ b2g (b + 1)).getLsbD j = decide (j = k) := by
  obtain ⟨k, hk, hbits⟩ := exists_getLsbD_xor_succ hn b
  refine ⟨k, hk, fun j => ?_⟩
  rw [← b2g_xor, getLsbD_b2g, hbits, hbits]
  obtain hlt | rfl | hgt := lt_trichotomy j k
  · simp [hlt.le, hlt.ne, Nat.succ_le_of_lt hlt]
  · simp
  · simp [hgt.not_ge, hgt.ne', (hgt.trans (Nat.lt_succ_self j)).not_ge]

/-- Settles O15: the gray code of the bits that counting flips is one bit. -/
theorem grayCodesDifferInOneBit : Obligations.GrayCodesDifferInOneBit := by
  unfold Obligations.GrayCodesDifferInOneBit
  exact ⟨fun _ hn b => exists_getLsbD_b2g_xor_b2g_succ hn b, by decide⟩

/-! ### The GSYNC on its own: the counter and the synchroniser (R113 to R115) -/

theorem exec_gcInc (inc : Bool) (s : State) : exec (.gcInc inc) s = .next (gsyncSource inc s) := rfl

theorem exec_syncShift (s : State) : exec .syncShift s = .next (gsyncDest s.gsync.srcGray s) := rfl

theorem execPair_gcInc_syncShift (inc : Bool) (see : See) (s : State) :
    execPair (.gcInc inc) .syncShift see s = .next (gsyncPair inc see s) := rfl

section
variable {s : State} (hs : s.arstN = true)
include hs

theorem gsyncSource_of_released (inc : Bool) : gsyncSource inc s = { s with gsync := s.gsync.step inc } := by
  rw [gsyncSource, if_pos hs]

theorem gsyncDest_of_released (g : Ptr) : gsyncDest g s = { s with gsync := s.gsync.shift g } := by
  rw [gsyncDest, if_pos hs]

/-- R115: the shift of a pair follows the step and sees it through the sample alone. -/
theorem gsyncPair_of_released (inc : Bool) (see : See) :
    gsyncPair inc see s =
      { s with gsync :=
        (s.gsync.step inc).shift (sampled see.s1 s.gsync.srcGray (s.gsync.step inc).srcGray) } := by
  rw [gsyncPair, gsyncSource_of_released hs]
  exact gsyncDest_of_released (by exact hs) _

end

/-- R113, with the choice of `inc` at each register. -/
theorem gsync_step_eq (inc : Bool) (g : Gsync) :
    g.step inc =
      { g with
        srcBin := if inc then g.srcBin + 1 else g.srcBin
        srcGray := if inc then b2g (g.srcBin + 1) else g.srcGray } := by
  cases inc <;> rfl

/-- Settles O16: the two registers step together, so they stay a count and its gray code, and R112 says what a step changes. -/
theorem gcIncStepsTheCounter : Obligations.GcIncStepsTheCounter := by
  unfold Obligations.GcIncStepsTheCounter
  intro inc s hs
  have hexec : exec (.gcInc inc) s = .next { s with gsync := s.gsync.step inc } := by
    rw [exec_gcInc, gsyncSource_of_released hs]
  refine ⟨by rw [hexec, gsync_step_eq], fun hgray t ht => ?_⟩
  obtain rfl := Host.Outcome.next.inj (hexec.symm.trans ht)
  refine ⟨grayStep_gray hgray, ?_⟩
  rintro rfl
  rw [Gsync.step_srcGray, grayStep_true, hgray]
  exact exists_getLsbD_b2g_xor_b2g_succ (by decide) s.gsync.srcBin

/-- Settles O17: alone, the sample returns `src_gray` as it stands. -/
theorem syncShiftMovesOneRank : Obligations.SyncShiftMovesOneRank := by
  unfold Obligations.SyncShiftMovesOneRank
  intro s hs
  rw [exec_syncShift, gsyncDest_of_released hs, Gsync.shift]

/-- Settles O18: `sampled` is the choice between the old and the new value. -/
theorem coincidentSampleIsOldOrNew : Obligations.CoincidentSampleIsOldOrNew := by
  unfold Obligations.CoincidentSampleIsOldOrNew
  intro inc see s hs
  refine ⟨_, _, exec_gcInc inc s, execPair_gcInc_syncShift inc see s, ?_⟩
  rw [gsyncPair_of_released hs, gsyncSource_of_released hs]
  rfl

/-! ### The gray registers that cross the clock domains of the block (R113, R235) -/

/-- At most one bit of a register changes. -/
def ChangesAtMostOneBit (g g' : Ptr) : Prop := ∃ k, ∀ j, j ≠ k → g'.getLsbD j = g.getLsbD j

theorem ChangesAtMostOneBit.refl (g : Ptr) : ChangesAtMostOneBit g g := ⟨0, fun _ _ => rfl⟩

/-- R112 for the counter of GC_INC, which counts or stands still. -/
theorem changesAtMostOneBit_grayStep {bin gray : Ptr} (inc : Bool) (h : gray = b2g bin) :
    ChangesAtMostOneBit gray (grayStep inc bin gray).2 := by
  cases inc with
  | false => exact .refl gray
  | true =>
    obtain ⟨k, -, hbits⟩ := exists_getLsbD_b2g_xor_b2g_succ (by decide) bin
    refine ⟨k, fun j hj => ?_⟩
    have hsame := hbits j
    rw [← h, BitVec.getLsbD_xor, decide_eq_false hj] at hsame
    exact (bne_eq_false_iff_eq.1 hsame).symm

theorem Afifo.WriteMove.wgray_changesAtMostOneBit {q q' : Afifo} {g : Ptr} (h : q.WriteMove g q')
    (hq : q.wgray = b2g q.wbin) : ChangesAtMostOneBit q.wgray q'.wgray := by
  cases h with
  | stay => exact .refl _
  | edge winc f => exact changesAtMostOneBit_grayStep (q.wrOk winc) hq

theorem Afifo.ReadMove.rgray_changesAtMostOneBit {q q' : Afifo} {g : Ptr} (h : q.ReadMove g q')
    (hq : q.rgray = b2g q.rbin) : ChangesAtMostOneBit q.rgray q'.rgray := by
  cases h with
  | stay => exact .refl _
  | edge rinc => exact changesAtMostOneBit_grayStep (q.rdPop rinc) hq

theorem Afifo.Clocked.gray_changesAtMostOneBit {q q' : Afifo} (h : q.Clocked q') (hq : q.grayOk) :
    ChangesAtMostOneBit q.wgray q'.wgray ∧ ChangesAtMostOneBit q.rgray q'.rgray := by
  obtain ⟨hwgray, hrgray⟩ := hq
  obtain ⟨g, g', w, r, hw, hr, -, -, rfl⟩ := h
  exact ⟨hw.wgray_changesAtMostOneBit hwgray, hr.rgray_changesAtMostOneBit hrgray⟩

/-! ### Outside reset a step clocks the two queues of the block, or leaves them

`State.Move` does not record that its case `cleared` is RESET, which ends with `arst_n` at 0; these lemmas leave RESET out. -/

/-- The clocks, and nothing else, act on the two queues of the block. -/
def State.queuesClocked (s t : State) : Prop := s.inq.Clocked t.inq ∧ s.outq.Clocked t.outq

theorem State.queuesClocked_of_eq {s t : State} (hi : t.inq = s.inq) (ho : t.outq = s.outq) : s.queuesClocked t := by
  rw [State.queuesClocked, hi, ho]
  exact ⟨.refl _, .refl _⟩

theorem taskStep_queuesClocked (inp : TaskIn) (s : State) : s.queuesClocked (taskStep inp s) := by
  cases h : s.arstN with
  | false => exact State.queuesClocked_of_eq (by simp [taskStep_eq, h]) (by simp [taskStep_eq, h])
  | true =>
    rw [State.queuesClocked, taskStep_inq inp h, taskStep_outq inp h]
    exact ⟨clocked_readEdge _ _, clocked_writeEdge _ _ _⟩

theorem isrStep_queuesClocked (inp : IsrIn) (s : State) : s.queuesClocked (isrStep inp s) := by
  cases h : s.arstN with
  | false => exact State.queuesClocked_of_eq (by simp [isrStep_eq, h]) (by simp [isrStep_eq, h])
  | true =>
    rw [State.queuesClocked, isrStep_inq inp h, isrStep_outq inp h]
    exact ⟨clocked_writeEdge _ _ _, clocked_readEdge _ _⟩

theorem pairStep_queuesClocked (t : TaskIn) (i : IsrIn) (see : See) (s : State) :
    s.queuesClocked (pairStep t i see s) := by
  cases h : s.arstN with
  | false => exact State.queuesClocked_of_eq (by simp [pairStep, h, Afifo.join]) (by simp [pairStep, h, Afifo.join])
  | true =>
    rw [State.queuesClocked, pairStep_inq t i see h, pairStep_outq t i see h]
    simp only [taskStep_inq t h, taskStep_outq t h, isrStep_inq i h, isrStep_outq i h]
    exact ⟨clocked_join (sampled_cases _ _ _) (sampled_cases _ _ _),
      clocked_join (sampled_cases _ _ _) (sampled_cases _ _ _)⟩

theorem exec_queuesClocked {i : Instr} {s t : State} (h : exec i s = .next t) (ht : t.arstN = true) :
    s.queuesClocked t := by
  obtain ⟨-, ⟨p, hi⟩ | ⟨p, hi⟩⟩ | ⟨inc, -, hi⟩ | ⟨-, hi⟩ | ⟨winc, f, -, hi⟩ | ⟨rinc, -, hi⟩ | ⟨inp, -, hi⟩ |
      ⟨inp, -, hi⟩ | ⟨n, -, hi⟩ := exec_cases i s
  all_goals obtain rfl := Host.Outcome.next.inj (hi.symm.trans h)
  case inr.inr.inr.inr.inr.inl => exact taskStep_queuesClocked inp s
  case inr.inr.inr.inr.inr.inr.inl => exact isrStep_queuesClocked inp s
  case inr.inr.inr.inr.inr.inr.inr =>
    cases n with
    | false => exact absurd ht Bool.false_ne_true
    | true => exact State.queuesClocked_of_eq rfl rfl
  all_goals exact State.queuesClocked_of_eq rfl rfl

theorem execPair_queuesClocked {a b : Instr} {see : See} {s t : State} (h : execPair a b see s = .next t) :
    s.queuesClocked t := by
  obtain ⟨ti, ii, -, -, hp⟩ | ⟨winc, f, rinc, -, -, hp⟩ | ⟨inc, -, -, hp⟩ | ⟨-, hp⟩ := execPair_cases a b see s
  case inr.inr.inr => cases hp.symm.trans h
  all_goals obtain rfl := Host.Outcome.next.inj (hp.symm.trans h)
  case inl => exact pairStep_queuesClocked ti ii see s
  all_goals exact State.queuesClocked_of_eq rfl rfl

theorem step_queuesClocked {s t : State} (h : step s = .next t) (ht : t.arstN = true) : s.queuesClocked t := by
  obtain ⟨-, rfl⟩ | ⟨l, rest, i, -, -, hi⟩ | ⟨l, rest, a, b, see, -, -, hab⟩ := step_next_cases h
  · exact State.queuesClocked_of_eq rfl rfl
  · exact exec_queuesClocked (s := s.withPending rest) hi ht
  · exact execPair_queuesClocked (s := s.withPending rest) hab

/-- Settles O45: outside reset the clocks move each pointer by its counter, whose gray code changes in one bit (R112). -/
theorem crossingRegistersChangeOneBit : Obligations.CrossingRegistersChangeOneBit := by
  unfold Obligations.CrossingRegistersChangeOneBit
  intro s t hs h ht
  obtain ⟨⟨hinqGray, -⟩, ⟨houtqGray, -⟩, -⟩ := hs
  obtain ⟨hinq, houtq⟩ := step_queuesClocked h ht
  obtain ⟨hinqWrite, hinqRead⟩ := hinq.gray_changesAtMostOneBit hinqGray
  obtain ⟨houtqWrite, houtqRead⟩ := houtq.gray_changesAtMostOneBit houtqGray
  exact ⟨hinqWrite, hinqRead, houtqWrite, houtqRead⟩

end Sys2Proof.Machine

/-! # Proofs of the statements of spec/42_afifo.md: the AFIFO on its own, and pushes and pops that fail -/

namespace Sys2Proof.Machine

/-! ### The ports and edges of a queue, by what it shows -/

theorem writePorts_false (q : Afifo) :
    writePorts false q = { wrOk := false, wrDrop := false, wfull := q.wfull, wcount := q.wcount } := rfl

theorem readPorts_false (q : Afifo) :
    readPorts false q =
      { rdValid := !q.rempty, rdata := q.entry .unit q.rbin, rdPop := false, rdEmpty := false, rempty := q.rempty,
        rcount := q.rcount } := rfl

section
variable {q : Afifo}

theorem writePorts_true_of_not_wfull (h : q.wfull = false) :
    writePorts true q = { wrOk := true, wrDrop := false, wfull := false, wcount := q.wcount } := by
  simp [writePorts, Afifo.wrOk, h]

theorem writePorts_true_of_wfull (h : q.wfull = true) :
    writePorts true q = { wrOk := false, wrDrop := true, wfull := true, wcount := q.wcount } := by
  simp [writePorts, Afifo.wrOk, h]

theorem readPorts_true_of_not_rempty (h : q.rempty = false) :
    readPorts true q =
      { rdValid := true, rdata := q.entry .unit q.rbin, rdPop := true, rdEmpty := false, rempty := false,
        rcount := q.rcount } := by
  simp [readPorts, Afifo.rdPop, h]

theorem readPorts_true_of_rempty (h : q.rempty = true) :
    readPorts true q =
      { rdValid := false, rdata := q.entry .unit q.rbin, rdPop := false, rdEmpty := true, rempty := true,
        rcount := q.rcount } := by
  simp [readPorts, Afifo.rdPop, h]

/-- R137: a push into a full queue shifts the ranks, as an edge without a request does. -/
theorem writeAlone_true_of_wfull (f : Frame) (h : q.wfull = true) :
    q.writeAlone true f = { q with wq1Rgray := q.rgray, wq2Rgray := q.wq1Rgray } :=
  writeEdge_of_not_wrOk (by simp [Afifo.wrOk, h])

/-- R138: a pop of an empty queue shifts the ranks, as an edge without a request does. -/
theorem readAlone_true_of_rempty (h : q.rempty = true) :
    q.readAlone true = { q with rq1Wgray := q.wgray, rq2Wgray := q.rq1Wgray } :=
  readEdge_of_not_rdPop (by simp [Afifo.rdPop, h])

end

/-- The ranks of the write domain are no part of what a queue holds. -/
theorem contents_with_writeRanks (id : ArrayId) (q : Afifo) (g g' : Ptr) :
    { q with wq1Rgray := g, wq2Rgray := g' }.contents id = q.contents id := rfl

/-- R40: a write replaces the entry at its address and no other. -/
theorem memRead_memWrite (id : ArrayId) (m : Mem) (a b : Addr) (f : Frame) :
    memRead id (memWrite m a.toNat f) b = if b = a then f else memRead id m b := by
  split_ifs with h
  · rw [h, memRead_memWrite_same]
  · exact memRead_memWrite_other id m a b f h

/-! ### PUSH, POP and their pair with reset released -/

section
variable {s : State} (hs : s.arstN = true)
include hs

theorem exec_push (winc : Bool) (f : Frame) :
    exec (.push winc f) s =
      .next { s with
        afifo := s.afifo.writeAlone winc f
        ports := { s.ports with write := writePorts winc s.afifo } } := by
  have hexec : exec (.push winc f) s = .next (unitWrite winc f s.afifo.rgray s) := rfl
  rw [hexec, unitWrite, if_pos hs, Afifo.writeAlone]

theorem exec_pop (rinc : Bool) :
    exec (.pop rinc) s =
      .next { s with
        afifo := s.afifo.readAlone rinc
        ports := { s.ports with read := readPorts rinc s.afifo } } := by
  have hexec : exec (.pop rinc) s = .next (unitRead rinc s.afifo.wgray s) := rfl
  rw [hexec, unitRead, if_pos hs, Afifo.readAlone]

/-- R142: a pair is the two edges from one state, each of which sees the other through its sample alone. -/
theorem execPair_push_pop (winc : Bool) (f : Frame) (rinc : Bool) (see : See) :
    execPair (.push winc f) (.pop rinc) see s =
      .next { s with
        afifo := Afifo.join
          (s.afifo.writeEdge winc f (sampled see.s1 s.afifo.rgray (s.afifo.readAlone rinc).rgray))
          (s.afifo.readEdge rinc (sampled see.s2 s.afifo.wgray (s.afifo.writeAlone winc f).wgray))
        ports := { s.ports with write := writePorts winc s.afifo, read := readPorts rinc s.afifo } } := by
  have hpair : execPair (.push winc f) (.pop rinc) see s = .next (unitPair winc f rinc see s) := rfl
  simp only [hpair, unitPair, unitWrite, unitRead, hs, if_true, Afifo.readAlone, Afifo.writeAlone]

end

/-- Settles O26: PUSH is a write edge of the queue, POP a read edge (`contents_writeEdge`, `contents_readEdge`). -/
theorem unitQueueIsFirstInFirstOut : Obligations.UnitQueueIsFirstInFirstOut := by
  unfold Obligations.UnitQueueIsFirstInFirstOut
  intro s hinv hs
  refine ⟨fun winc f => ⟨_, exec_push hs winc f, ?push⟩, fun rinc => ⟨_, exec_pop hs rinc, ?pop, fun hv => ?oldest⟩⟩
  case push => exact contents_writeEdge hinv .unit winc f s.afifo.rgray
  case pop => exact contents_readEdge hinv .unit rinc s.afifo.wgray
  case oldest => exact head?_contents hinv .unit (by simpa [readPorts] using hv)

/-- Settles O20: a queue that is not full stores the frame at the address of its write pointer (`memRead_memWrite`). -/
theorem pushStoresAndSteps : Obligations.PushStoresAndSteps := by
  unfold Obligations.PushStoresAndSteps
  intro f s hs hne
  have hfull : s.afifo.wfull = false := beq_false_of_ne hne
  rw [exec_push hs, writeAlone_true f hfull, writePorts_true_of_not_wfull hfull]
  exact ⟨_, rfl, rfl, fun a => memRead_memWrite .unit s.afifo.mem (entryAddr s.afifo.wbin) a f⟩

/-- Settles O21: a queue that is not empty shows the entry at its read pointer and steps it. -/
theorem popDeliversAndSteps : Obligations.PopDeliversAndSteps := by
  unfold Obligations.PopDeliversAndSteps
  intro s hs hne
  have hempty : s.afifo.rempty = false := beq_false_of_ne hne
  rw [exec_pop hs, readAlone_true hempty, readPorts_true_of_not_rempty hempty]
  rfl

/-- Settles O22, from the two edges without a request. -/
theorem edgesWithoutRequestOnlyShift : Obligations.EdgesWithoutRequestOnlyShift := by
  unfold Obligations.EdgesWithoutRequestOnlyShift
  intro f s hs
  rw [exec_push hs, exec_pop hs, writeAlone_false, readAlone_false, writePorts_false, readPorts_false]
  exact ⟨⟨_, rfl, rfl, rfl, rfl⟩, ⟨_, rfl, rfl, rfl, rfl⟩⟩

/-- Settles O25: of what the samples return, each edge keeps the value in its first rank (`join_writeEdge_readEdge`). -/
theorem coincidentPushAndPop : Obligations.CoincidentPushAndPop := by
  unfold Obligations.CoincidentPushAndPop
  intro winc f rinc see s hs
  refine ⟨_, _, _, exec_push hs winc f, exec_pop hs rinc, execPair_push_pop hs winc f rinc see, ?_⟩
  rw [join_writeEdge_readEdge (u := s.afifo.rgray) (u' := s.afifo.wgray)]
  rfl

/-! ### Pushes and pops that fail (R137, R138) -/

/-- R162: a SEND that is not bypassed meets a full queue and is dropped. -/
theorem sendStatus_of_wfull_of_not_bypassed {space : Bool} {q : Afifo} (h : q.wfull = true)
    (hb : ¬ (q.wcount = 0 ∧ space = true)) (recvReq : Bool) (f : Frame) :
    sendStatus ⟨true, space, recvReq, f⟩ q = .dropped := by
  have hcond : ¬ (q.wcount == 0 && space) = true := by simpa using hb
  simp only [sendStatus, if_true, if_neg hcond, h]

/-- Settles O23: each of the three operations is a write edge of its queue, whose push fails or was not asked for. -/
theorem failedPushChangesNothing : Obligations.FailedPushChangesNothing := by
  unfold Obligations.FailedPushChangesNothing
  intro s f hs
  refine ⟨fun hfull => ?push, fun space recvReq hfull hb => ?send, fun txDone space err hfull hpass => ?rxdep⟩
  case push =>
    rw [exec_push hs, writeAlone_true_of_wfull f hfull, writePorts_true_of_wfull hfull]
    exact ⟨_, rfl, rfl, rfl, rfl, contents_with_writeRanks ..⟩
  case send =>
    have hstatus := sendStatus_of_wfull_of_not_bypassed hfull hb recvReq f
    refine ⟨_, exec_send space f recvReq s, hstatus, beq_false_of_ne ?_, ?_⟩
    · simp [hstatus]
    · rw [taskStep_outq _ hs, hstatus]
      exact ⟨writeAlone_false f s.outq, contents_with_writeRanks ..⟩
  case rxdep =>
    have hreq : rxPass ⟨true, txDone, space, err, f⟩ s = true := pass_of_ext_or_unfiltered hpass
    refine ⟨_, exec_rxdep f txDone space err s, ?_⟩
    rw [isrStep_inq _ hs, hreq, writeAlone_true_of_wfull f hfull]
    simp [isrPorts, hreq, hfull, contents_with_writeRanks]

/-- Settles O24: each of the three operations is a read edge of its queue, whose pop fails or was not asked for. -/
theorem failedPopChangesNothing : Obligations.FailedPopChangesNothing := by
  unfold Obligations.FailedPopChangesNothing
  intro s hs
  refine ⟨fun hempty => ?pop, fun space f hempty => ?recv, fun space err hempty => ?txsvc⟩
  case pop =>
    rw [exec_pop hs, readAlone_true_of_rempty hempty, readPorts_true_of_rempty hempty]
    exact ⟨_, rfl, rfl, rfl, rfl, rfl⟩
  case recv =>
    refine ⟨_, exec_recv space f s, ?_⟩
    rw [taskStep_inq _ hs, readAlone_true_of_rempty hempty]
    simp [taskPorts, hempty]
  case txsvc =>
    have hreq : txPop ⟨false, true, space, err, 0⟩ s = false := by simp [txPop, hempty]
    refine ⟨_, exec_txsvc space err s, hreq, ?_⟩
    rw [isrStep_outq _ hs, hreq]
    exact ⟨(if_pos hs).trans hreq, readAlone_false s.outq⟩

/-! ### The views and the true occupancy, as differences of counters (R136) -/

section
variable {q : Afifo} {c : Counters} (h : q.CountedBy c)
include h

theorem Afifo.CountedBy.rcount_toNat : q.rcount.toNat = c.rq2 - c.rbin := by
  obtain ⟨⟨_, _, _, _, _, _⟩, -, ⟨hr, -, -, hr2⟩, -, -⟩ := h
  rw [Afifo.rcount, hr2, g2b_grayOf, hr, toNat_ofNat_sub_ofNat] <;> omega

theorem Afifo.CountedBy.occ_toNat : q.occ.toNat = c.wbin - c.rbin := by
  obtain ⟨⟨_, _, _, _, _, _⟩, ⟨hw, -⟩, ⟨hr, -⟩, -, -⟩ := h
  rw [Afifo.occ, hw, hr, toNat_ofNat_sub_ofNat] <;> omega

theorem Afifo.CountedBy.wcount_toNat : q.wcount.toNat = c.wbin - c.wq2 := by
  obtain ⟨⟨_, _, _, _, _, _⟩, ⟨hw, -, -, hw2⟩, -, -, -⟩ := h
  rw [Afifo.wcount, hw, hw2, g2b_grayOf, toNat_ofNat_sub_ofNat] <;> omega

/-- The entry that the next pop shows was written, where the queue holds one. -/
theorem Afifo.CountedBy.next_written (hlt : c.rbin < c.wbin) :
    (memLookup q.mem (entryAddr q.rbin).toNat).isSome = true := by
  obtain ⟨hr, -⟩ := h.read
  rw [hr, entryAddr_ofNat]
  exact h.written c.rbin le_rfl hlt

end

/-- Settles O27: on the counters the three bounds are the chain of R24, wq2 ≤ rbin ≤ rq2 ≤ wbin ≤ wq2 + 64. -/
theorem viewsErrOnTheSafeSide : Obligations.ViewsErrOnTheSafeSide := by
  unfold Obligations.ViewsErrOnTheSafeSide
  intro q hinv
  have h := hinv.countedBy
  obtain ⟨h21, h1r, hr2, h21r, h1w, hw64⟩ := h.ordered
  rw [h.rcount_toNat, h.occ_toNat, h.wcount_toNat]
  refine ⟨by omega, by omega, by omega, fun hfull => ?room, fun hempty => ?held⟩
  case room =>
    have hroom := lt_of_not_wfull h.write hw64 hfull
    omega
  case held =>
    have hheld := lt_of_not_rempty h.read hr2 hempty
    exact ⟨by omega, h.next_written (by omega)⟩

end Sys2Proof.Machine

/-! # Proofs of the statements of spec/43_channels.md: the TASK edge, the ISR edge, the transmit loop, the bounds of the queues -/

namespace Sys2Proof.Machine

/-! ### What an edge of a queue alone does with its request -/

theorem readAlone_eq (rinc : Bool) (q : Afifo) :
    q.readAlone rinc =
      { q with
        rbin := if q.rdPop rinc then q.rbin + 1 else q.rbin
        rgray := if q.rdPop rinc then b2g (q.rbin + 1) else q.rgray
        rq1Wgray := q.wgray
        rq2Wgray := q.rq1Wgray } := by
  cases hok : q.rdPop rinc with
  | false => exact readEdge_of_not_rdPop hok
  | true => exact readEdge_of_rdPop hok

section
variable {q : Afifo} {winc : Bool} (f : Frame)

/-- R131: a push that succeeds steps the pointer and stores the frame at the address it had. -/
theorem writeAlone_of_wrOk (id : ArrayId) (h : q.wrOk winc = true) :
    (q.writeAlone winc f).wbin = q.wbin + 1 ∧ (q.writeAlone winc f).wgray = b2g (q.wbin + 1) ∧
      ∀ a : Addr, memRead id (q.writeAlone winc f).mem a = if a = entryAddr q.wbin then f else memRead id q.mem a := by
  rw [Afifo.writeAlone, writeEdge_of_wrOk h]
  exact ⟨rfl, rfl, fun a => memRead_memWrite id q.mem (entryAddr q.wbin) a f⟩

/-- R137: a push that fails, or none, keeps the pointer and the array. -/
theorem writeAlone_of_not_wrOk (h : q.wrOk winc = false) :
    (q.writeAlone winc f).wbin = q.wbin ∧ (q.writeAlone winc f).wgray = q.wgray ∧
      (q.writeAlone winc f).mem = q.mem := by
  rw [Afifo.writeAlone, writeEdge_of_not_wrOk h]
  exact ⟨rfl, rfl, rfl⟩

end

/-- To a full queue a request to push is no request. -/
theorem writeAlone_not_wfull (f : Frame) (q : Afifo) : q.writeAlone (!q.wfull) f = q.writeAlone true f := by
  cases hfull : q.wfull with
  | false => rfl
  | true => exact (writeAlone_false f q).trans (writeAlone_true_of_wfull f hfull).symm

/-! ### The two edges of the block with reset released, as whole states -/

section
variable {s : State} (hs : s.arstN = true)
include hs

theorem taskStep_of_released (inp : TaskIn) :
    taskStep inp s =
      { s with
        outq := s.outq.writeAlone (sendStatus inp s.outq == .queued) inp.sendFrame
        inq := s.inq.readAlone inp.recvReq
        ports := { s.ports with task := taskPorts inp s } } := by
  simp only [taskStep_eq, taskEdge, hs, if_true, Afifo.writeAlone, Afifo.readAlone]

theorem isrStep_of_released (inp : IsrIn) :
    isrStep inp s =
      { s with
        inq := s.inq.writeAlone (rxPass inp s) inp.rxFrame
        outq := s.outq.readAlone (txPop inp s)
        txRun := txPop inp s
        ports := { s.ports with isr := isrPorts inp s } } := by
  simp only [isrStep_eq, isrEdge, hs, if_true, Afifo.writeAlone, Afifo.readAlone]

theorem isrStep_txRun (inp : IsrIn) : (isrStep inp s).txRun = txPop inp s := if_pos hs

/-- R168: the read edge of OUTQ steps its pointer exactly when TXSVC pops. -/
theorem isrStep_outq_eq (inp : IsrIn) :
    (isrStep inp s).outq =
      { s.outq with
        rbin := if txPop inp s then s.outq.rbin + 1 else s.outq.rbin
        rgray := if txPop inp s then b2g (s.outq.rbin + 1) else s.outq.rgray
        rq1Wgray := s.outq.wgray
        rq2Wgray := s.outq.rq1Wgray } := by
  rw [isrStep_outq inp hs, readAlone_eq, rdPop_txPop]

/-- R168, R169: where no frame is delivered, INQ's write ranks shift and nothing else of it changes. -/
theorem isrStep_inq_of_not_rxValid {inp : IsrIn} (hv : inp.rxValid = false) :
    (isrStep inp s).inq = { s.inq with wq1Rgray := s.inq.rgray, wq2Rgray := s.inq.wq1Rgray } := by
  have hpass : rxPass inp s = false := by rw [rxPass, hv, Bool.false_and]
  rw [isrStep_inq inp hs, hpass, writeAlone_false]

end

theorem taskStep_frame (inp : TaskIn) (s : State) : s.taskFrame (taskStep inp s) := taskEdge_frame inp _ _ s

theorem isrStep_frame (inp : IsrIn) (s : State) : s.isrFrame (isrStep inp s) := isrEdge_frame inp _ _ s

theorem exec_errevt (space : Bool) (s : State) :
    exec (.errevt space) s = .next (isrStep ⟨false, false, space, true, 0⟩ s) := exec_of_isrInputs rfl s

/-- R170: `err_evt` is read by no part of the ISR edge. -/
theorem isrStep_errEvt (rxValid txDone space err err' : Bool) (f : Frame) (s : State) :
    isrStep ⟨rxValid, txDone, space, err, f⟩ s = isrStep ⟨rxValid, txDone, space, err', f⟩ s := rfl

/-- R173: without `tx_done` a loop that does not run does not start. -/
theorem txPop_of_idle {inp : IsrIn} {s : State} (hd : inp.txDone = false) (hrun : s.txRun = false) :
    txPop inp s = false := by
  rw [txPop, hd, hrun, Bool.or_false, Bool.false_and, Bool.false_and]

theorem isrPorts_of_no_request {inp : IsrIn} {s : State} (hpass : rxPass inp s = false) (hpop : txPop inp s = false) :
    isrPorts inp s =
      { inOk := false, inDrop := false, inWfull := s.inq.wfull, inWcount := s.inq.wcount, txValid := false,
        txFrame := s.outq.entry .outq s.outq.rbin, outRempty := s.outq.rempty, outRcount := s.outq.rcount } := by
  simp only [isrPorts, hpass, hpop, Bool.false_and]

theorem inOk_inDrop_of_not_rxValid {inp : IsrIn} (hv : inp.rxValid = false) (s : State) :
    (isrPorts inp s).inOk = false ∧ (isrPorts inp s).inDrop = false := by
  simp [isrPorts, rxPass, hv]

/-! ### The outcome of SEND (R162, R163) -/

theorem code_eq_queued_iff (st : SendStatus) : st.code = 2#2 ↔ st = .queued := by
  cases st <;> decide

theorem beq_bypassed_eq_code (st : SendStatus) : (st == .bypassed) = (st.code == 1#2) := by
  cases st <;> rfl

theorem code_sendStatus (space recvReq : Bool) (f : Frame) (q : Afifo) :
    (sendStatus ⟨true, space, recvReq, f⟩ q).code =
      if q.wcount = 0 ∧ space = true then 1#2 else if q.wfull = true then 3#2 else 2#2 := by
  simp only [sendStatus, if_true, Bool.and_eq_true, beq_iff_eq]
  split_ifs <;> rfl

/-! ### The statements of the TASK edge -/

/-- Settles O28: SEND asks OUTQ for a push exactly when QUEUED, and such a push succeeds (`wrOk_sendStatus`). -/
theorem sendBypassesQueuesOrDrops : Obligations.SendBypassesQueuesOrDrops := by
  unfold Obligations.SendBypassesQueuesOrDrops
  intro space f recvReq s hs
  refine ⟨_, exec_send space f recvReq s, ?outcome, beq_bypassed_eq_code _, rfl, rfl, rfl, ?wq1, ?wq2, ?queued,
    ?notQueued, ?noRecv, taskStep_frame _ s⟩
  case outcome =>
    refine (code_sendStatus space recvReq f s.outq).trans ?_
    simp only [Afifo.wfull, Afifo.wcount, beq_iff_eq]
  all_goals
    simp only [taskStep_outq _ hs, taskStep_inq _ hs, taskStep_ports_task, taskPorts, ne_eq, code_eq_queued_iff]
  case wq1 => rfl
  case wq2 => rfl
  case queued =>
    intro hqueued
    exact writeAlone_of_wrOk f .outq (by rw [wrOk_sendStatus, hqueued]; rfl)
  case notQueued =>
    intro hqueued
    exact writeAlone_of_not_wrOk f (by rw [wrOk_sendStatus]; exact beq_false_of_ne hqueued)
  case noRecv =>
    rintro rfl
    exact ⟨readAlone_false s.inq, rfl⟩

/-- Settles O29: both operations are the TASK edge with `recv_req`; RECV alone asks OUTQ for no push. -/
theorem recvTakesTheOldestFrame : Obligations.RecvTakesTheOldestFrame := by
  unfold Obligations.RecvTakesTheOldestFrame
  intro space f s hs i hi
  obtain ⟨inp, hexec, hrecv, halone⟩ :
      ∃ inp, exec i s = .next (taskStep inp s) ∧ inp.recvReq = true ∧
        (i = .recv space f → inp = ⟨false, space, true, f⟩) := by
    obtain rfl | rfl := hi
    · exact ⟨_, exec_recv space f s, rfl, fun _ => rfl⟩
    · exact ⟨_, exec_send space f true s, rfl, nofun⟩
  have hinq : (taskStep inp s).inq = s.inq.readAlone true := by rw [taskStep_inq inp hs, hrecv]
  refine ⟨_, hexec, rfl, ?empty, rfl, rfl, ?rbin, ?rgray, ?rq1, ?rq2, ?alone, taskStep_frame inp s⟩
  case empty => simp [taskPorts, hrecv, Afifo.rempty]
  case alone =>
    intro h
    obtain rfl := halone h
    rw [taskStep_outq _ hs, sendStatus_beq_queued_of_no_request]
    exact ⟨writeAlone_false f s.outq, rfl, rfl, rfl⟩
  all_goals simp [hinq, readAlone_eq, Afifo.rdPop, Afifo.rempty]

/-- Settles O30: the TASK edge without a request. -/
theorem tickTOnlyShifts : Obligations.TickTOnlyShifts := by
  unfold Obligations.TickTOnlyShifts
  intro space f s hs
  rw [exec_tickT, taskStep_of_released hs, sendStatus_beq_queued_of_no_request, writeAlone_false, readAlone_false]
  rfl

/-! ### The statements of the ISR edge -/

/-- Settles O32: `in_ok` is that the push into INQ, asked for unless the frame is filtered, succeeds. -/
theorem rxdepDepositsDropsOrFilters : Obligations.RxdepDepositsDropsOrFilters := by
  unfold Obligations.RxdepDepositsDropsOrFilters
  intro f txDone space err s hs
  refine ⟨_, exec_rxdep f txDone space err s, rfl, rfl, rfl, rfl, ?wq1, ?wq2, ?pushed, ?notPushed, isrStep_frame _ s⟩
  all_goals rw [isrStep_inq _ hs]
  case wq1 => rfl
  case wq2 => rfl
  case pushed => exact writeAlone_of_wrOk f .inq
  case notPushed => exact writeAlone_of_not_wrOk f

/-- Settles O33: the read edge of OUTQ pops exactly when `tx_valid` (`isrStep_outq_eq`). -/
theorem everyIsrEdgeRunsTxsvc : Obligations.EveryIsrEdgeRunsTxsvc := by
  unfold Obligations.EveryIsrEdgeRunsTxsvc
  intro i inp s hi hs
  have houtq := isrStep_outq_eq hs inp
  refine ⟨_, exec_of_isrInputs hi s, rfl, rfl, isrStep_txRun hs inp, rfl, rfl, congrArg Afifo.rbin houtq,
    congrArg Afifo.rgray houtq, congrArg Afifo.rq1Wgray houtq, congrArg Afifo.rq2Wgray houtq, fun hv => ?inq,
    isrStep_frame inp s⟩
  case inq => exact ⟨isrStep_inq_of_not_rxValid hs hv, inOk_inDrop_of_not_rxValid hv s⟩

/-- Settles O34: TXSVC is the ISR edge with `tx_done` and no frame delivered. -/
theorem txsvcStartsTheLoop : Obligations.TxsvcStartsTheLoop := by
  unfold Obligations.TxsvcStartsTheLoop
  intro space err s hs
  refine ⟨_, exec_txsvc space err s, isrStep_inq_of_not_rxValid hs rfl, rfl, rfl, ?valid, isrStep_txRun hs _, rfl, ?outq,
    isrStep_frame _ s⟩
  case valid => simp [isrPorts, txPop, Afifo.rempty, bne]
  case outq => rw [isrStep_outq_eq hs, isrStep_txRun hs]

/-- Settles O35: the edges differ in `err_evt` only. -/
theorem errorEventChangesNothing : Obligations.ErrorEventChangesNothing := by
  unfold Obligations.ErrorEventChangesNothing
  intro s space txDone f
  simp only [exec_errevt, exec_tickI, exec_txsvc, exec_rxdep]
  exact ⟨congrArg _ (isrStep_errEvt ..), ⟨_, rfl⟩, congrArg _ (isrStep_errEvt ..), congrArg _ (isrStep_errEvt ..)⟩

/-- Settles O36: with `tx_run` 0 and no `tx_done` the ISR edge has no request. -/
theorem tickIOnlyShifts : Obligations.TickIOnlyShifts := by
  unfold Obligations.TickIOnlyShifts
  intro space s hs hrun
  have hpop : txPop ⟨false, false, space, false, 0⟩ s = false := txPop_of_idle rfl hrun
  rw [exec_tickI, isrStep_of_released hs, isrPorts_of_no_request (rxPass_of_not_rxValid ..) hpop, rxPass_of_not_rxValid,
    hpop, writeAlone_false, readAlone_false]
  rfl

/-! ### What an edge reads (R161, R166): one domain's registers of each queue, what it samples and the entry it shows -/

section
variable {q q' : Afifo} (h : q.sameWriteSide q')
include h

theorem wfull_eq_of_sameWriteSide : q'.wfull = q.wfull := by
  obtain ⟨-, hgray, -, hview, -⟩ := h
  rw [Afifo.wfull, Afifo.wfull, hgray, hview]

theorem wcount_eq_of_sameWriteSide : q'.wcount = q.wcount := by
  obtain ⟨hbin, -, -, hview, -⟩ := h
  rw [Afifo.wcount, Afifo.wcount, hbin, hview]

theorem sendStatus_eq_of_sameWriteSide (inp : TaskIn) : sendStatus inp q' = sendStatus inp q := by
  rw [sendStatus, sendStatus, wfull_eq_of_sameWriteSide h, wcount_eq_of_sameWriteSide h]

theorem sameWriteSide_writeEdge (winc : Bool) (f : Frame) (g : Ptr) :
    (q.writeEdge winc f g).sameWriteSide (q'.writeEdge winc f g) := by
  have hfull := wfull_eq_of_sameWriteSide h
  obtain ⟨hbin, hgray, hrank, -, hmem⟩ := h
  simp [Afifo.sameWriteSide, Afifo.writeEdge, Afifo.wrOk, hfull, hbin, hgray, hrank, hmem]

end

section
variable {q q' : Afifo} (h : q.sameReadSide q')
include h

theorem rempty_eq_of_sameReadSide : q'.rempty = q.rempty := by
  obtain ⟨-, hgray, -, hview⟩ := h
  rw [Afifo.rempty, Afifo.rempty, hgray, hview]

theorem rcount_eq_of_sameReadSide : q'.rcount = q.rcount := by
  obtain ⟨hbin, -, -, hview⟩ := h
  rw [Afifo.rcount, Afifo.rcount, hbin, hview]

theorem sameReadSide_readEdge (rinc : Bool) (g : Ptr) : (q.readEdge rinc g).sameReadSide (q'.readEdge rinc g) := by
  have hempty := rempty_eq_of_sameReadSide h
  obtain ⟨hbin, hgray, hrank, -⟩ := h
  simp [Afifo.sameReadSide, Afifo.readEdge, Afifo.rdPop, hempty, hbin, hgray, hrank]

end

section
variable {s s' : State}

theorem taskPorts_eq_of_sameSides (hw : s.outq.sameWriteSide s'.outq) (hr : s.inq.sameReadSide s'.inq)
    (hentry : s'.inq.entry .inq s'.inq.rbin = s.inq.entry .inq s.inq.rbin) (inp : TaskIn) :
    taskPorts inp s' = taskPorts inp s := by
  simp only [taskPorts, sendStatus_eq_of_sameWriteSide hw, wfull_eq_of_sameWriteSide hw, wcount_eq_of_sameWriteSide hw,
    rempty_eq_of_sameReadSide hr, rcount_eq_of_sameReadSide hr, hentry]

theorem rxPass_eq_of_rxStdFilter (h : s'.rxStdFilter = s.rxStdFilter) (inp : IsrIn) : rxPass inp s' = rxPass inp s := by
  rw [rxPass, rxPass, h]

theorem txPop_eq_of_sameReadSide (hr : s.outq.sameReadSide s'.outq) (hrun : s'.txRun = s.txRun) (inp : IsrIn) :
    txPop inp s' = txPop inp s := by
  rw [txPop, txPop, hrun, rempty_eq_of_sameReadSide hr]

theorem isrPorts_eq_of_sameSides (hw : s.inq.sameWriteSide s'.inq) (hr : s.outq.sameReadSide s'.outq)
    (hstd : s'.rxStdFilter = s.rxStdFilter) (hrun : s'.txRun = s.txRun)
    (hentry : s'.outq.entry .outq s'.outq.rbin = s.outq.entry .outq s.outq.rbin) (inp : IsrIn) :
    isrPorts inp s' = isrPorts inp s := by
  simp only [isrPorts, rxPass_eq_of_rxStdFilter hstd, txPop_eq_of_sameReadSide hr hrun, wfull_eq_of_sameWriteSide hw,
    wcount_eq_of_sameWriteSide hw, rempty_eq_of_sameReadSide hr, rcount_eq_of_sameReadSide hr, hentry]

theorem taskStep_sameSides (hlevel : s.arstN = s'.arstN) (hw : s.outq.sameWriteSide s'.outq)
    (hr : s.inq.sameReadSide s'.inq) (hrgray : s.outq.rgray = s'.outq.rgray) (hwgray : s.inq.wgray = s'.inq.wgray)
    (inp : TaskIn) :
    (taskStep inp s).outq.sameWriteSide (taskStep inp s').outq ∧
      (taskStep inp s).inq.sameReadSide (taskStep inp s').inq := by
  simp only [taskStep_eq, taskEdge_outq, taskEdge_inq, ← hlevel, ← hrgray, ← hwgray, sendStatus_eq_of_sameWriteSide hw]
  cases s.arstN with
  | false => exact ⟨hw, hr⟩
  | true => exact ⟨sameWriteSide_writeEdge hw _ _ _, sameReadSide_readEdge hr _ _⟩

theorem isrStep_sameSides (hlevel : s.arstN = s'.arstN) (hstd : s.rxStdFilter = s'.rxStdFilter)
    (hw : s.inq.sameWriteSide s'.inq) (hr : s.outq.sameReadSide s'.outq) (hrun : s.txRun = s'.txRun)
    (hrgray : s.inq.rgray = s'.inq.rgray) (hwgray : s.outq.wgray = s'.outq.wgray) (inp : IsrIn) :
    (isrStep inp s).inq.sameWriteSide (isrStep inp s').inq ∧
      (isrStep inp s).outq.sameReadSide (isrStep inp s').outq ∧ (isrStep inp s).txRun = (isrStep inp s').txRun := by
  simp only [isrStep_eq, isrEdge_inq, isrEdge_outq, isrEdge_txRun, ← hlevel, ← hrgray, ← hwgray, ← hrun,
    rxPass_eq_of_rxStdFilter hstd.symm, txPop_eq_of_sameReadSide hr hrun.symm]
  cases s.arstN with
  | false => exact ⟨hw, hr, trivial⟩
  | true => exact ⟨sameWriteSide_writeEdge hw _ _ _, sameReadSide_readEdge hr _ _, trivial⟩

end

/-- Settles O31: each edge is a write edge of one queue and a read edge of the other, or, in reset, neither. -/
theorem edgesReadOnlyTheirOwnDomain : Obligations.EdgesReadOnlyTheirOwnDomain := by
  unfold Obligations.EdgesReadOnlyTheirOwnDomain
  refine ⟨?task, ?isr⟩
  case task =>
    intro i s s' t t' hi hlevel hw hr hrgray hwgray hentry ht ht'
    obtain ⟨inp, hinp⟩ := exists_taskInputs_of_isTaskEdge hi
    obtain rfl := Host.Outcome.next.inj ((exec_of_taskInputs hinp s).symm.trans ht)
    obtain rfl := Host.Outcome.next.inj ((exec_of_taskInputs hinp s').symm.trans ht')
    have hports := taskPorts_eq_of_sameSides hw hr hentry.symm inp
    obtain ⟨houtq, hinq⟩ := taskStep_sameSides hlevel hw hr hrgray hwgray inp
    exact ⟨houtq, hinq, hports.symm⟩
  case isr =>
    intro i s s' t t' hi hlevel hstd hw hr hrun hrgray hwgray hentry ht ht'
    obtain ⟨inp, hinp⟩ := exists_isrInputs_of_isIsrEdge hi
    obtain rfl := Host.Outcome.next.inj ((exec_of_isrInputs hinp s).symm.trans ht)
    obtain rfl := Host.Outcome.next.inj ((exec_of_isrInputs hinp s').symm.trans ht')
    have hports := isrPorts_eq_of_sameSides hw hr hstd.symm hrun.symm hentry.symm inp
    obtain ⟨hinq, houtq, htxRun⟩ := isrStep_sameSides hlevel hstd hw hr hrun hrgray hwgray inp
    exact ⟨hinq, houtq, htxRun, hports.symm⟩

/-! ### The transmit loop (R168, R173) -/

theorem length_contents (id : ArrayId) (q : Afifo) : (q.contents id).length = q.occ.toNat := by
  simp [Afifo.contents]

/-- A pop that succeeds takes one from the occupancy. -/
theorem occ_readAlone_of_rdPop {q : Afifo} {rinc : Bool} (h : q.Inv) (hok : q.rdPop rinc = true) :
    (q.readAlone rinc).occ.toNat + 1 = q.occ.toNat := by
  rw [← length_contents .outq, ← length_contents .outq, contents_eq_cons_of_rdPop h .outq hok q.wgray, List.length_cons,
    Afifo.readAlone]

theorem occ_le_of_inv {q : Afifo} (h : q.Inv) : q.occ.toNat ≤ 64 := by
  obtain ⟨-, hocc, hwcount, -⟩ := viewsErrOnTheSafeSide q h
  exact hocc.trans hwcount

/-- The loop does not run, or OUTQ holds fewer than `n` frames, so that `n` edges without `tx_done` end it. -/
def State.loopEndsWithin (s : State) (n : Nat) : Prop := s.txRun = true → s.outq.occ.toNat < n

/-- An edge without `tx_done` after which the loop runs has popped a frame. -/
theorem isrStep_loopEndsWithin {s : State} {inp : IsrIn} {n : Nat} (hinv : s.outq.Inv) (hs : s.arstN = true)
    (hd : inp.txDone = false) (h : s.loopEndsWithin (n + 1)) : (isrStep inp s).loopEndsWithin n := by
  intro hrun
  have hpop : txPop inp s = true := (isrStep_txRun hs inp).symm.trans hrun
  have hran : s.txRun = true := by
    by_contra hidle
    simp [txPop_of_idle hd (Bool.eq_false_of_not_eq_true hidle)] at hpop
  have hocc := occ_readAlone_of_rdPop hinv ((rdPop_txPop inp s).trans hpop)
  rw [isrStep_outq inp hs]
  have hlt := h hran
  omega

theorem isrStep_outq_inv {s : State} (h : s.outq.Inv) (inp : IsrIn) : (isrStep inp s).outq.Inv :=
  (isrStep_queuesClocked inp s).2.inv h

/-- Any edges without `tx_done`, as many as the loop ends within, complete and end it. -/
theorem execAll_ends_loop {edges : List Instr} {s : State} (hinv : s.outq.Inv) (hs : s.arstN = true)
    (hedges : ∀ i ∈ edges, ∃ inp, isrInputs i = some inp ∧ inp.txDone = false) (h : s.loopEndsWithin edges.length) :
    ∃ t, execAll edges s = .next t ∧ t.txRun = false := by
  induction edges generalizing s with
  | nil => exact ⟨s, rfl, Bool.eq_false_of_not_eq_true fun hrun => Nat.not_lt_zero _ (h hrun)⟩
  | cons i edges ih =>
    obtain ⟨⟨inp, hinp, hd⟩, hrest⟩ := List.forall_mem_cons.1 hedges
    simp only [execAll, exec_of_isrInputs hinp]
    exact ih (isrStep_outq_inv hinv inp) hs hrest (isrStep_loopEndsWithin hinv hs hd h)

/-- Settles O37: OUTQ holds at most 64 frames, and each edge that keeps the loop running takes one. -/
theorem transmitLoopEndsByItself : Obligations.TransmitLoopEndsByItself := by
  unfold Obligations.TransmitLoopEndsByItself
  intro s edges hinv hs hlength hedges
  refine execAll_ends_loop hinv hs hedges fun _ => ?_
  have hocc := occ_le_of_inv hinv
  omega

/-! ### The bounds of the queues (R135, R175): pushes alone, from a cleared queue -/

/-- Reset, then pushes of `fs` and no pop: the write pointer has counted what fits, the read pointer and the write domain's view of it
stand at 0, and the entry of each counter below 64 shows the frame pushed at it. -/
structure Afifo.FilledWith (id : ArrayId) (q : Afifo) (fs : List Frame) : Prop where
  write : q.writeSideAt (min fs.length 64) 0 0
  rbin : q.rbin = 0
  rgray : q.rgray = 0
  entries : ∀ n < 64, ∀ f, fs[n]? = some f → Mem.frameAt id q.mem n = f

theorem filledWith_nil_of_cleared (id : ArrayId) {q : Afifo} (h : q.cleared) : q.FilledWith id [] := by
  rw [h]
  exact { write := ⟨rfl, rfl, rfl, rfl⟩, rbin := rfl, rgray := rfl, entries := nofun }

section
variable {id : ArrayId} {q : Afifo} {fs : List Frame} (h : q.FilledWith id fs)
include h

theorem wcount_of_filledWith : q.wcount.toNat = min fs.length 64 := by
  obtain ⟨hw, -, -, hw2⟩ := h.write
  rw [Afifo.wcount, hw, hw2, g2b_grayOf, toNat_ofNat_sub_ofNat] <;> omega

theorem wfull_of_filledWith : q.wfull = decide (64 ≤ fs.length) := by
  obtain ⟨hw, hgray, -⟩ := h.write
  have hcount := wcount_of_filledWith h
  rw [Bool.eq_iff_iff, wfull_iff (hgray.trans (congrArg b2g hw.symm)), ← Afifo.wcount, ← BitVec.toNat_inj, hcount,
    decide_eq_true_iff]
  exact min_eq_right_iff

theorem contents_of_filledWith : q.contents id = fs.take 64 := by
  rw [contents_eq_map_range' (r := 0) id h.rbin h.write.1 (by omega) (by omega)]
  refine List.ext_getElem (by simp; omega) fun n hn hn' => ?_
  simp only [List.length_take] at hn'
  simpa using h.entries n (by omega) _ (List.getElem?_eq_getElem (by omega))

/-- R175: a push that fits stores its frame at the entry of its own counter; another changes nothing but ranks, which stay at 0. -/
theorem filledWith_append (f : Frame) : (q.writeAlone true f).FilledWith id (fs ++ [f]) := by
  have hfull := wfull_of_filledWith h
  obtain ⟨⟨hw, hgray, hw1, -⟩, hrbin, hrgray, hentries⟩ := h
  obtain hfits | hlong := Nat.lt_or_ge fs.length 64
  · have hmin : min (fs ++ [f]).length 64 = min fs.length 64 + 1 := by simp; omega
    have hnext : q.wbin + 1 = BitVec.ofNat 7 (min (fs ++ [f]).length 64) := by rw [hmin, ofNat_ptr_succ, hw]
    rw [writeAlone_true f (hfull.trans (decide_eq_false (by omega)))]
    refine ⟨⟨hnext, congrArg b2g hnext, hrgray, hw1⟩, hrbin, hrgray, fun n hn g hg => ?_⟩
    simp only [hw, min_eq_left hfits.le]
    obtain hlt | rfl := Nat.lt_or_eq_of_le (Nat.le_of_lt_succ (by simpa using (List.getElem?_eq_some_iff.1 hg).1))
    · rw [frameAt_memWrite_of_lt f hlt (by omega)]
      exact hentries n hn g (by rwa [List.getElem?_append_left hlt] at hg)
    · rw [frameAt_memWrite_same]
      simpa using hg
  · have hmin : min (fs ++ [f]).length 64 = min fs.length 64 := by simp; omega
    rw [writeAlone_true_of_wfull f (hfull.trans (decide_eq_true hlong))]
    refine ⟨⟨hmin ▸ hw, hmin ▸ hgray, hrgray, hw1⟩, hrbin, hrgray, fun n hn g hg => ?_⟩
    exact hentries n hn g (by rwa [List.getElem?_append_left (by omega)] at hg)

end

theorem execAll_append_singleton {is : List Instr} {s t : State} (h : execAll is s = .next t) (i : Instr) :
    execAll (is ++ [i]) s = exec i t := by
  induction is generalizing s with
  | nil =>
    obtain rfl := Host.Outcome.next.inj h
    simp only [List.nil_append, execAll]
    cases exec i s <;> rfl
  | cons j is ih =>
    simp only [List.cons_append, execAll] at h ⊢
    cases hj : exec j s with
    | next u =>
      simp only [hj] at h ⊢
      exact ih h
    | fault r => simp [hj] at h
    | refused r => simp [hj] at h

/-- From a state that is ready, `op` pushes its frame into a queue, shows whether the queue was full, and leaves a state that is
ready. -/
def Pushes (op : Frame → Instr) (queue : State → Afifo) (ready : State → Prop) (shows : Bool → State → Prop) : Prop :=
  ∀ s f, ready s → ∃ t, exec (op f) s = .next t ∧ ready t ∧ queue t = (queue s).writeAlone true f ∧
    shows (queue s).wfull t

/-- R175: pushes alone fill a cleared queue up to 64 frames; the last one shows whether the queue was full before it. -/
theorem execAll_pushes {op : Frame → Instr} {queue : State → Afifo} {ready : State → Prop} {shows : Bool → State → Prop}
    (hop : Pushes op queue ready shows) (id : ArrayId) {s : State} (hs : ready s) (hq : (queue s).cleared)
    (fs : List Frame) :
    ∃ t, execAll (fs.map op) s = .next t ∧ ready t ∧ (queue t).FilledWith id fs ∧
      (fs ≠ [] → shows (decide (64 < fs.length)) t) := by
  induction fs using List.reverseRecOn with
  | nil => exact ⟨s, rfl, hs, filledWith_nil_of_cleared id hq, fun h => absurd rfl h⟩
  | append_singleton fs f ih =>
    obtain ⟨u, hrun, hu, hfilled, -⟩ := ih
    obtain ⟨t, hexec, ht, hqueue, hshows⟩ := hop u f hu
    refine ⟨t, ?_, ht, hqueue ▸ filledWith_append hfilled f, fun _ => ?_⟩
    · rw [List.map_append, List.map_singleton, execAll_append_singleton hrun, hexec]
    · rw [wfull_of_filledWith hfilled] at hshows
      rwa [List.length_append, List.length_singleton, decide_eq_decide.2 Nat.lt_succ_iff]

/-- SEND without space pushes its frame, and shows QUEUED or, where OUTQ shows full, DROPPED (R162). -/
theorem send_without_space_pushes :
    Pushes (fun f => .send false f false) State.outq (fun s => s.arstN = true)
      (fun full t => t.ports.task.sendStatus = if full then .dropped else .queued) := by
  intro s f hs
  have hstatus : sendStatus ⟨true, false, false, f⟩ s.outq = if s.outq.wfull then .dropped else .queued := by
    simp [sendStatus]
  refine ⟨_, exec_send false f false s, hs, ?_, hstatus⟩
  have hrequest : (sendStatus ⟨true, false, false, f⟩ s.outq == .queued) = !s.outq.wfull := by
    rw [hstatus]
    cases s.outq.wfull <;> rfl
  rw [taskStep_outq _ hs, hrequest, writeAlone_not_wfull]

/-- RXDEP with the default `RX_STD_FILTER` pushes its frame, and shows whether INQ was full (R167). -/
theorem rxdep_unfiltered_pushes :
    Pushes (fun f => .rxdep f false false false) State.inq (fun s => s.arstN = true ∧ s.rxStdFilter = false)
      (fun full t => t.ports.isr.inOk = !full ∧ t.ports.isr.inDrop = full) := by
  rintro s f ⟨hrel, hstd⟩
  have hpass : rxPass ⟨true, false, false, false, f⟩ s = true := pass_of_ext_or_unfiltered (.inr hstd)
  refine ⟨_, exec_rxdep f false false false s, ⟨hrel, hstd⟩, ?_, ?_⟩
  · rw [isrStep_inq _ hrel, hpass]
  · simp only [isrStep_ports_isr, isrPorts, hpass, Bool.true_and, and_self]

/-- Settles O51: SENDs without space are pushes into OUTQ (`execAll_pushes`). -/
theorem outboundQueueHoldsSixtyFour : Obligations.OutboundQueueHoldsSixtyFour := by
  unfold Obligations.OutboundQueueHoldsSixtyFour
  intro s fs hs hcleared
  obtain ⟨t, hrun, -, hfilled, hshows⟩ := execAll_pushes send_without_space_pushes .outq hs hcleared fs
  refine ⟨t, hrun, contents_of_filledWith hfilled, wcount_of_filledWith hfilled, fun hne => ?_⟩
  rw [hshows hne]
  simp only [decide_eq_true_eq, ← not_le, ite_not]

/-- Settles O52: deposits that no filter stops are pushes into INQ (`execAll_pushes`). -/
theorem inboundQueueHoldsSixtyFour : Obligations.InboundQueueHoldsSixtyFour := by
  unfold Obligations.InboundQueueHoldsSixtyFour
  intro s fs hs hstd hcleared
  obtain ⟨t, hrun, -, hfilled, hshows⟩ := execAll_pushes rxdep_unfiltered_pushes .inq ⟨hs, hstd⟩ hcleared fs
  refine ⟨t, hrun, contents_of_filledWith hfilled, wcount_of_filledWith hfilled, fun hne => ?_⟩
  obtain ⟨hok, hdrop⟩ := hshows hne
  rw [hok, hdrop, ← decide_not, ← decide_not]
  simp only [not_le, not_lt, and_self]

end Sys2Proof.Machine

/-! # Proofs of the statements of spec/70_reset_and_hazards.md: RESET, the edges in reset, bypass and transmit -/

namespace Sys2Proof.Machine

/-! ### What a queue in reset shows (R28, R220) -/

theorem cleared_resetRegs (q : Afifo) : q.resetRegs.cleared := rfl

section
variable {q : Afifo} (h : q.cleared)
include h

theorem wfull_of_cleared : q.wfull = false := by rw [h, resetRegs_wfull]

theorem rempty_of_cleared : q.rempty = true := by rw [h, resetRegs_rempty]

theorem wcount_of_cleared : q.wcount = 0 := by rw [h, resetRegs_wcount]

theorem rcount_of_cleared : q.rcount = 0 := by rw [h, resetRegs_rcount]

/-- R162, R163: a cleared queue shows empty and not full, so SEND bypasses by `tx_space_w` alone and never drops. -/
theorem sendStatus_of_cleared (inp : TaskIn) :
    sendStatus inp q = if inp.sendReq then (if inp.txSpaceW then .bypassed else .queued) else .idle := by
  simp [sendStatus, wcount_of_cleared h, wfull_of_cleared h]

end

/-- R220: with any inputs a cleared INQ delivers no frame. -/
theorem recvValid_of_cleared {s : State} (h : s.inq.cleared) (inp : TaskIn) : (taskPorts inp s).recvValid = false := by
  simp [taskPorts, rempty_of_cleared h]

/-- R220: with any inputs a cleared INQ drops no frame. -/
theorem inDrop_of_cleared {s : State} (h : s.inq.cleared) (inp : IsrIn) : (isrPorts inp s).inDrop = false := by
  simp [isrPorts, wfull_of_cleared h]

/-- R220: with any inputs a cleared OUTQ starts no transmission. -/
theorem txValid_of_cleared {s : State} (h : s.outq.cleared) (inp : IsrIn) : (isrPorts inp s).txValid = false := by
  simp [isrPorts, txPop, rempty_of_cleared h]

/-! ### RESET -/

theorem exec_reset (n : Bool) (s : State) : exec (.reset n) s = .next (setReset n s) := rfl

/-- R28, R220: RESET records the outputs that the cleared registers give with all inputs 0. -/
theorem setReset_false_ports (s : State) : (setReset false s).ports = idlePorts (setReset false s) := rfl

theorem idlePorts_task (s : State) : (idlePorts s).task = taskPorts .idle s := rfl

theorem idlePorts_isr (s : State) : (idlePorts s).isr = isrPorts .idle s := rfl

/-- Settles O38: `setReset_false` gives the registers, and the flags and outputs are those of cleared queues. -/
theorem resetClearsEveryRegister : Obligations.ResetClearsEveryRegister := by
  unfold Obligations.ResetClearsEveryRegister
  intro s
  have hi : (setReset false s).inq.cleared := cleared_resetRegs s.inq
  have ho : (setReset false s).outq.cleared := cleared_resetRegs s.outq
  refine ⟨⟨setReset false s, exec_reset false s, ?inq, ?outq, rfl, rfl, rfl, rfl, rfl, rfl, rfl, rfl,
    wfull_of_cleared hi, rempty_of_cleared hi, wcount_of_cleared hi, rcount_of_cleared hi,
    wfull_of_cleared ho, rempty_of_cleared ho, wcount_of_cleared ho, rcount_of_cleared ho,
    ?txValid, ?inDrop, ?recvValid, ?sendStatus⟩, ?release⟩
  case inq => exact ⟨rfl, rfl, rfl, rfl, rfl, rfl, rfl, rfl, rfl⟩
  case outq => exact ⟨rfl, rfl, rfl, rfl, rfl, rfl, rfl, rfl, rfl⟩
  case txValid => rw [setReset_false_ports, idlePorts_isr, txValid_of_cleared ho]
  case inDrop => rw [setReset_false_ports, idlePorts_isr, inDrop_of_cleared hi]
  case recvValid => rw [setReset_false_ports, idlePorts_task, recvValid_of_cleared hi]
  case sendStatus =>
    rw [setReset_false_ports, idlePorts_task]
    exact sendStatus_of_cleared ho .idle
  case release => rw [exec_reset, setReset_true]

/-! ### The edges while `arst_n` is 0, as whole states (R220) -/

section
variable {s : State} (hs : s.arstN = false)
include hs

theorem taskEdge_of_held (inp : TaskIn) (a b : Ptr) :
    taskEdge inp a b s = { s with ports := { s.ports with task := taskPorts inp s } } := by
  simp [taskEdge, hs]

theorem isrEdge_of_held (inp : IsrIn) (a b : Ptr) :
    isrEdge inp a b s = { s with ports := { s.ports with isr := isrPorts inp s } } := by
  simp [isrEdge, hs]

theorem taskStep_of_held (inp : TaskIn) :
    taskStep inp s = { s with ports := { s.ports with task := taskPorts inp s } } := taskEdge_of_held hs inp _ _

theorem isrStep_of_held (inp : IsrIn) :
    isrStep inp s = { s with ports := { s.ports with isr := isrPorts inp s } } := isrEdge_of_held hs inp _ _

theorem unitWrite_of_held (winc : Bool) (f : Frame) (g : Ptr) :
    unitWrite winc f g s = { s with ports := { s.ports with write := writePorts winc s.afifo } } := by
  simp [unitWrite, hs]

theorem unitRead_of_held (rinc : Bool) (g : Ptr) :
    unitRead rinc g s = { s with ports := { s.ports with read := readPorts rinc s.afifo } } := by
  simp [unitRead, hs]

theorem gsyncSource_of_held (inc : Bool) : gsyncSource inc s = s := by
  rw [gsyncSource, if_neg (ne_true_of_eq_false hs)]

theorem gsyncDest_of_held (g : Ptr) : gsyncDest g s = s := by
  rw [gsyncDest, if_neg (ne_true_of_eq_false hs)]

/-- What the samples return reaches no register in reset, so `see` chooses nothing. -/
theorem pairStep_of_held (t : TaskIn) (i : IsrIn) (see : See) :
    pairStep t i see s = { s with ports := { s.ports with task := taskPorts t s, isr := isrPorts i s } } := by
  simp only [pairStep, taskEdge_of_held hs, isrEdge_of_held hs, Afifo.join]

theorem unitPair_of_held (winc : Bool) (f : Frame) (rinc : Bool) (see : See) :
    unitPair winc f rinc see s =
      { s with ports := { s.ports with write := writePorts winc s.afifo, read := readPorts rinc s.afifo } } := by
  simp only [unitPair, unitWrite_of_held hs, unitRead_of_held hs, Afifo.join]

theorem gsyncPair_of_held (inc : Bool) (see : See) : gsyncPair inc see s = s := by
  rw [gsyncPair, gsyncSource_of_held hs, gsyncDest_of_held hs]

theorem exec_of_held {i : Instr} (hi : ∀ b, i ≠ .reset b) : ∃ p, exec i s = .next { s with ports := p } := by
  obtain ⟨-, ⟨p, he⟩ | ⟨p, he⟩⟩ | ⟨inc, -, he⟩ | ⟨-, he⟩ | ⟨winc, f, -, he⟩ | ⟨rinc, -, he⟩ | ⟨inp, -, he⟩ |
      ⟨inp, -, he⟩ | ⟨n, hn, -⟩ := exec_cases i s
  · exact ⟨_, he⟩
  · exact ⟨_, he⟩
  · exact ⟨_, gsyncSource_of_held hs inc ▸ he⟩
  · exact ⟨_, gsyncDest_of_held hs s.gsync.srcGray ▸ he⟩
  · exact ⟨_, unitWrite_of_held hs winc f s.afifo.rgray ▸ he⟩
  · exact ⟨_, unitRead_of_held hs rinc s.afifo.wgray ▸ he⟩
  · exact ⟨_, taskStep_of_held hs inp ▸ he⟩
  · exact ⟨_, isrStep_of_held hs inp ▸ he⟩
  · exact absurd hn (hi n)

theorem execPair_of_held {a b : Instr} (hab : pairWf a b = true) (see : See) :
    ∃ p, execPair a b see s = .next { s with ports := p } := by
  obtain ⟨ti, ii, -, -, he⟩ | ⟨winc, f, rinc, -, -, he⟩ | ⟨inc, -, -, he⟩ | ⟨hno, -⟩ := execPair_cases a b see s
  · exact ⟨_, pairStep_of_held hs ti ii see ▸ he⟩
  · exact ⟨_, unitPair_of_held hs winc f rinc see ▸ he⟩
  · exact ⟨_, gsyncPair_of_held hs inc see ▸ he⟩
  · exact absurd hab (by simp [hno])

end

/-- Settles O39: every edge and pair in reset is a change of outputs alone, and SEND's is what cleared registers make of it. -/
theorem edgesInResetChangeNothing : Obligations.EdgesInResetChangeNothing := by
  unfold Obligations.EdgesInResetChangeNothing
  intro s hs
  refine ⟨fun i hi => ?single, fun a b see hab => ?pair, fun hcleared i inp hinp => ?outputs⟩
  case single =>
    obtain ⟨p, he⟩ := exec_of_held hs hi
    exact ⟨_, he, rfl⟩
  case pair =>
    obtain ⟨p, he⟩ := execPair_of_held hs hab see
    exact ⟨_, he, rfl⟩
  case outputs => exact ⟨_, exec_of_taskInputs hinp s, sendStatus_of_cleared hcleared inp⟩

/-! ### Bypass and transmit (R233) -/

/-- R162: SEND bypasses only where the write domain sees no frame in the queue. -/
theorem wcount_of_bypassed {inp : TaskIn} {q : Afifo} (h : sendStatus inp q = .bypassed) : q.wcount = 0 := by
  by_contra hcount
  simp only [sendStatus, beq_false_of_ne hcount, Bool.false_and, Bool.false_eq_true, if_false] at h
  split_ifs at h

/-- R136: the write domain sees at least the frames that are there, so where it sees none there are none. -/
theorem contents_of_wcount_eq_zero {q : Afifo} (h : q.Inv) (id : ArrayId) (hcount : q.wcount = 0) :
    q.contents id = [] := by
  obtain ⟨-, hocc, -⟩ := viewsErrOnTheSafeSide q h
  rw [hcount] at hocc
  rw [← List.length_eq_zero_iff, length_contents]
  exact Nat.le_zero.1 hocc

/-- R168: TXSVC transmits a frame of OUTQ, so none where OUTQ holds none. -/
theorem txValid_of_contents_eq_nil {s : State} (h : s.outq.Inv) (inp : IsrIn) (hempty : s.outq.contents .outq = []) :
    (isrPorts inp s).txValid = false := by
  by_contra hvalid
  have hhead := head?_outq_of_txValid h inp (Bool.eq_true_of_not_eq_false hvalid)
  simp [hempty] at hhead

/-- Settles O49: both outputs are made from the state before the pair, where a bypass needs OUTQ empty and a transmission does not
find it so. -/
theorem bypassAndTransmitNeverCoincide : Obligations.BypassAndTransmitNeverCoincide := by
  unfold Obligations.BypassAndTransmitNeverCoincide
  intro s t a b see hinv ha hb hstep hbypass
  obtain ⟨-, houtq, -⟩ := hinv
  obtain ⟨ti, hti⟩ := exists_taskInputs_of_isTaskEdge ha
  obtain ⟨ii, hii⟩ := exists_isrInputs_of_isIsrEdge hb
  obtain rfl := Host.Outcome.next.inj ((execPair_of_inputs hti hii see s).symm.trans hstep)
  rw [pairStep_ports_task, taskStep_ports_task] at hbypass
  have hstatus : sendStatus ti s.outq = .bypassed := beq_iff_eq.1 hbypass
  have hempty := contents_of_wcount_eq_zero houtq .outq (wcount_of_bypassed hstatus)
  refine ⟨hempty, ?_⟩
  rw [pairStep_ports_isr, isrStep_ports_isr, txValid_of_contents_eq_nil houtq ii hempty]

end Sys2Proof.Machine
